-- ==== Sys2Proof/Config.lean ====
section
/-! DEFINITION. What the spec leaves to one implementation, and the model's free values. Every constant here is opaque:
nothing can be proved of its value, so a claim holds whatever it is. No instruction's meaning reads `padDrive` or
`tickPeriod`. The protocol constants of R6, which the spec does fix, stand in Machine/Operands.lean. -/

namespace Sys2Proof

/-- The two electrical forms of the line's driver (92_eei_decisions.md D30). -/
inductive PadDrive where
  | pushPull
  | openDrain
  deriving DecidableEq, Repr, Inhabited

/-- `PAD_DRIVE`, left OPEN by R7 and 92_eei_decisions.md D30 (log entry 10). -/
opaque Config.padDrive : PadDrive

/-- `TICK_PERIOD` in microseconds, nominally 1, left OPEN by R5 and 92_eei_decisions.md D31 (log entry 10). -/
opaque Config.tickPeriod : Rat

/-- FREE VALUE (log entry 2). The 3-bit input word `{rst, start, line_in}` the outside world presents at a tick of the
given index when `State.inputs` names none. "The level of an undriven line is an input, like any other line level: the
block never assumes it" (R10). -/
opaque Config.freeInput : Nat → BitVec 3

/-- A duration in microseconds of a number of ticks: "Converting a bound to microseconds multiplies by `TICK_PERIOD`"
(92_eei_decisions.md D31). -/
def Config.microseconds (ticks : Nat) : Rat := ticks * Config.tickPeriod

end Sys2Proof
end

