-- ==== Sys2Proof/Word.lean ====
section
/-! DEFINITION. The words of the block (00_scope.md R7, R8; 10_state.md R13, R14, R17, R19): bytes, the two counters'
widths, and the two levels of the sensor line. Every value is unsigned. -/

namespace Sys2Proof

/-- An 8-bit register or payload byte (R14, R15). Bit 7 is the "highest-order bit" (R8). -/
abbrev Byte := BitVec 8

/-- The tick counter `cnt[14:0]` (R13). -/
abbrev Count := BitVec 15

/-- The bit index `n[5:0]` (R17). -/
abbrev BitIndex := BitVec 6

/-- A level of the sensor line: "Low is 0 and high is 1" (R10). -/
inductive Level where
  | low
  | high
  deriving DecidableEq, Repr

end Sys2Proof
end

