-- ==== Sys2Proof/Syntax.lean ====
section
/-! DEFINITION. The states of the block's state machine (30_encoding.md R44), the input word of a tick (R43) and the
twelve operations of the operation map (R46). -/

namespace Sys2Proof

/-- The state register `st[3:0]` (R12, R44). Codes 12 to 15 are reserved (R50); `reserved k` is code `12 + k`. -/
inductive St where
  | idle
  | done
  | failTimeout
  | failChecksum
  | reqLow
  | reqHigh
  | awaitAck1
  | awaitAck2
  | bitLow
  | bitHigh
  | assembling
  | validating
  | reserved (k : BitVec 2)
  deriving DecidableEq, Repr

/-- The class column of R44: "In a waiting state the block accepts a START". -/
def St.isWaiting : St → Bool
  | .idle | .done | .failTimeout | .failChecksum => true
  | _ => false

/-- The class column of R44: the eight states of a read in progress. -/
def St.isBusy : St → Bool
  | .reqLow | .reqHigh | .awaitAck1 | .awaitAck2 | .bitLow | .bitHigh | .assembling | .validating => true
  | _ => false

/-- The reserved codes 12 to 15 (R50). -/
def St.isReserved : St → Bool
  | .reserved _ => true
  | _ => false

/-- The inputs of one tick (R19), the input word `{rst, start, line_in}` of R43. -/
structure InputWord where
  rst    : Bool
  start  : Bool
  lineIn : Level
  deriving DecidableEq, Repr

/-- The operations of the operation map (R46), one constructor per row of the table. A constructor carries the bits of
the control word that its row ignores (`s` and `S` of the pattern column), so that no bit of a control word is lost;
no meaning reads them (log entry 12). The waiting rows and RSV carry the whole state; `Instr.WellFormed` says which
states they may carry. -/
inductive Instr where
  /-- RESET, `1sSSSS` (R99) -/
  | reset (start : Bool) (st : St)
  /-- WAIT, `0000SS` (R53) -/
  | wait (st : St)
  /-- START, `0100SS` (R54) -/
  | start (st : St)
  /-- REQ_LOW, `0s0100` (R61) -/
  | reqLow (start : Bool)
  /-- REQ_HIGH, `0s0101` (R62) -/
  | reqHigh (start : Bool)
  /-- ACK1, `0s0110` (R68) -/
  | ack1 (start : Bool)
  /-- ACK2, `0s0111` (R69) -/
  | ack2 (start : Bool)
  /-- BIT_LOW, `0s1000` (R70) -/
  | bitLow (start : Bool)
  /-- BIT_HIGH, `0s1001` (R71) -/
  | bitHigh (start : Bool)
  /-- ASSEMBLE, `0s1010` (R77) -/
  | assemble (start : Bool)
  /-- VALIDATE, `0s1011` (R79) -/
  | validate (start : Bool)
  /-- RSV, `0s11SS` (R50) -/
  | rsv (start : Bool) (st : St)
  deriving DecidableEq, Repr

/-- The mnemonic of the operation map (R46). -/
def Instr.mnemonic : Instr → String
  | .reset _ _  => "RESET"
  | .wait _     => "WAIT"
  | .start _    => "START"
  | .reqLow _   => "REQ_LOW"
  | .reqHigh _  => "REQ_HIGH"
  | .ack1 _     => "ACK1"
  | .ack2 _     => "ACK2"
  | .bitLow _   => "BIT_LOW"
  | .bitHigh _  => "BIT_HIGH"
  | .assemble _ => "ASSEMBLE"
  | .validate _ => "VALIDATE"
  | .rsv _ _    => "RSV"

end Sys2Proof
end

