-- ==== Sys2Proof/WellFormed.lean ====
section
/-! DEFINITION. Which terms of `Instr` stand for a control word of R46: WAIT and START are selected only in a waiting
state, RSV only in a reserved one. -/

namespace Sys2Proof

/-- The state an operation carries is one its row admits (R46). -/
def Instr.WellFormed : Instr → Bool
  | .reset _ _  => true
  | .wait st    => st.isWaiting
  | .start st   => st.isWaiting
  | .reqLow _   => true
  | .reqHigh _  => true
  | .ack1 _     => true
  | .ack2 _     => true
  | .bitLow _   => true
  | .bitHigh _  => true
  | .assemble _ => true
  | .validate _ => true
  | .rsv _ st   => st.isReserved

end Sys2Proof
end

