-- ==== Sys2Proof/Decode.lean ====
section
/-! DEFINITION. The encodings of 30_encoding.md: the state code (R44), the input word (R43), the control word and the
operation map (R46, R47); the decoder, then the encoder. -/

namespace Sys2Proof

/-- The state encoding `st[3:0]` (R44). -/
def St.code : St → BitVec 4
  | .idle         => 0
  | .done         => 1
  | .failTimeout  => 2
  | .failChecksum => 3
  | .reqLow       => 4
  | .reqHigh      => 5
  | .awaitAck1    => 6
  | .awaitAck2    => 7
  | .bitLow       => 8
  | .bitHigh      => 9
  | .assembling   => 10
  | .validating   => 11
  | .reserved k   => 0b11#2 ++ k

/-- The state a 4-bit code stands for (R44); codes 12 to 15 are the reserved ones (R50). -/
def St.ofCode (c : BitVec 4) : St :=
  match c.toNat with
  | 0  => .idle
  | 1  => .done
  | 2  => .failTimeout
  | 3  => .failChecksum
  | 4  => .reqLow
  | 5  => .reqHigh
  | 6  => .awaitAck1
  | 7  => .awaitAck2
  | 8  => .bitLow
  | 9  => .bitHigh
  | 10 => .assembling
  | 11 => .validating
  | _  => .reserved (c.extractLsb' 0 2)

/-- "Low is 0 and high is 1" (R10). -/
def Level.bit : Level → Bool
  | .low  => false
  | .high => true

/-- The level a line bit stands for (R10). -/
def Level.ofBit : Bool → Level
  | false => .low
  | true  => .high

/-- The input word `i[2:0] = {rst, start, line_in}` (R43). -/
def InputWord.bits (i : InputWord) : BitVec 3 :=
  BitVec.ofBool i.rst ++ BitVec.ofBool i.start ++ BitVec.ofBool i.lineIn.bit

/-- The inputs a 3-bit input word stands for (R43). -/
def InputWord.ofBits (b : BitVec 3) : InputWord where
  rst    := b.getLsbD 2
  start  := b.getLsbD 1
  lineIn := Level.ofBit (b.getLsbD 0)

/-- The control word `c[5:0] = {rst, start, st[3:0]}` (R46). -/
def controlWord (rst start : Bool) (st : St) : BitVec 6 :=
  BitVec.ofBool rst ++ BitVec.ofBool start ++ st.code

/-- The operation a control word selects (R46), with the priority of R47: `rst = 1` selects RESET; with `rst = 0` the
state selects the row, and in a waiting state `start` chooses between WAIT and START. Total: "no control word is
illegal". -/
def decode (c : BitVec 6) : Instr :=
  let start := c.getLsbD 4
  let st := St.ofCode (c.extractLsb' 0 4)
  if c.getLsbD 5 then .reset start st
  else
    match st with
    | .idle | .done | .failTimeout | .failChecksum => if start then .start st else .wait st
    | .reqLow     => .reqLow start
    | .reqHigh    => .reqHigh start
    | .awaitAck1  => .ack1 start
    | .awaitAck2  => .ack2 start
    | .bitLow     => .bitLow start
    | .bitHigh    => .bitHigh start
    | .assembling => .assemble start
    | .validating => .validate start
    | .reserved _ => .rsv start st

/-- Why a byte does not decode. -/
inductive DecodeError where
  /-- Bit 6 or 7 of the byte is set: a control word has 6 bits (R46), so the byte is no control word. Raised by
  `decodeByte`. Safe: no tick presents such a byte, since `step` decodes a 6-bit word (log entry 4). -/
  | notAControlWord
  deriving DecidableEq, Repr

/-- A control word held in a byte, its bits 5 to 0 those of R46 and its bits 7 and 6 zero (log entry 4). -/
def decodeByte (b : Byte) : Except DecodeError Instr :=
  if b.toNat < 64 then .ok (decode (b.extractLsb' 0 6)) else .error .notAControlWord

/-- The instruction the decoder reads from the bits `w`, numbered as spec/opcode_table.json numbers them: the control
word in one byte. A longer word is none of the table's. -/
def decodeTableWord (nbits w : Nat) : Option Instr :=
  if nbits ≤ 8 ∧ w < 256 then (decodeByte (BitVec.ofNat 8 w)).toOption else none

/-- The control word of an instruction, from the pattern column of R46. -/
def encode : Instr → BitVec 6
  | .reset start st  => 0b1#1 ++ BitVec.ofBool start ++ st.code
  | .wait st         => 0b00#2 ++ st.code
  | .start st        => 0b01#2 ++ st.code
  | .reqLow start    => 0b0#1 ++ BitVec.ofBool start ++ 0b0100#4
  | .reqHigh start   => 0b0#1 ++ BitVec.ofBool start ++ 0b0101#4
  | .ack1 start      => 0b0#1 ++ BitVec.ofBool start ++ 0b0110#4
  | .ack2 start      => 0b0#1 ++ BitVec.ofBool start ++ 0b0111#4
  | .bitLow start    => 0b0#1 ++ BitVec.ofBool start ++ 0b1000#4
  | .bitHigh start   => 0b0#1 ++ BitVec.ofBool start ++ 0b1001#4
  | .assemble start  => 0b0#1 ++ BitVec.ofBool start ++ 0b1010#4
  | .validate start  => 0b0#1 ++ BitVec.ofBool start ++ 0b1011#4
  | .rsv start st    => 0b0#1 ++ BitVec.ofBool start ++ st.code

/-- The `match` and `mask` columns of the operation map, row by row as R46 prints them: a control word selects the row
when `(c & mask) = match`. -/
def rowOf : Instr → BitVec 6 × BitVec 6
  | .reset _ _  => (0b100000, 0b100000)
  | .wait _     => (0b000000, 0b111100)
  | .start _    => (0b010000, 0b111100)
  | .reqLow _   => (0b000100, 0b101111)
  | .reqHigh _  => (0b000101, 0b101111)
  | .ack1 _     => (0b000110, 0b101111)
  | .ack2 _     => (0b000111, 0b101111)
  | .bitLow _   => (0b001000, 0b101111)
  | .bitHigh _  => (0b001001, 0b101111)
  | .assemble _ => (0b001010, 0b101111)
  | .validate _ => (0b001011, 0b101111)
  | .rsv _ _    => (0b001100, 0b101100)

end Sys2Proof
end

