-- ==== Sys2Proof/Machine/State.lean ====
section
/-! DEFINITION. The state of the block: the ten registers of 10_state.md R11 and, beside them, the model's own two fields
for the outside world's inputs (log entries 1 and 2). The reasons a step could stop, and the state after reset (R27). -/

namespace Sys2Proof.Machine

/-- The block. `st` to `valid` are the registers of R11, each under the spec's own name. -/
structure State where
  /-- `st[3:0]`, the state of the Frame Decoder's state machine (R12) -/
  st      : St
  /-- `cnt[14:0]`, the one tick counter (R13) -/
  cnt     : Count
  /-- `n[5:0]`, the bit index of `SamplingBit(n)` (R17) -/
  n       : BitIndex
  /-- `frame[0..4]`, the RawFrame (R14) -/
  frame   : Vector Byte 5
  /-- the humidity integral byte of the Reading Store (R15) -/
  storeHi : Byte
  /-- the humidity fractional byte (R15) -/
  storeHf : Byte
  /-- the temperature integral byte (R15) -/
  storeTi : Byte
  /-- the temperature fractional byte (R15) -/
  storeTf : Byte
  /-- the checksum byte (R15) -/
  storeCk : Byte
  /-- the flag `valid` (R16) -/
  valid   : Bool
  /-- THE MODEL'S OWN (log entry 1): the input words the outside world presents from this tick on, one a tick, the
  next one first; past the list's end the input is a free value -/
  inputs  : List InputWord
  /-- THE MODEL'S OWN (log entry 2): the index of this tick, which tells one free input from another -/
  tick    : Nat
  deriving DecidableEq, Repr

/-- The two errors the block can raise (R85); `InitError` "is not part of the block" (R88). They end a read in a failure
state, from which the machine goes on: they are no `Fault`. -/
inductive ErrorKind where
  | timeout
  | checksumMismatch
  deriving DecidableEq, Repr

/-- The reasons the machine could stop. There is none: "no control word is illegal, and no operation faults for being
undecodable" (R47), "no input word is illegal ... nothing overflows" (R85) (log entry 9). -/
inductive Fault
  deriving DecidableEq, Repr

/-- The reasons a step could be refused. -/
inductive Refusal where
  /-- An instruction without a meaning, by its mnemonic. Raised by no arm of `exec`: every row of the operation map has its
  meaning. Safe. -/
  | notModelled (mnemonic : String)
  deriving DecidableEq, Repr

/-- Five zero bytes: the frame after reset and after a START (R27, R54). -/
def zeroFrame : Vector Byte 5 := #v[0x00, 0x00, 0x00, 0x00, 0x00]

/-- The state after reset, the table of R27. The queue of inputs is empty and the tick index 0 (log entry 2). -/
def State.reset : State where
  st      := .idle
  cnt     := 0
  n       := 0
  frame   := zeroFrame
  storeHi := 0x00
  storeHf := 0x00
  storeTi := 0x00
  storeTf := 0x00
  storeCk := 0x00
  valid   := false
  inputs  := []
  tick    := 0

end Sys2Proof.Machine
end

