-- ==== Sys2Proof/Machine/Operands.lean ====
section
/-! DEFINITION. The protocol constants of 00_scope.md R6, the constant operands of the four phases (R48), and the fields
of the bit index (R49). -/

namespace Sys2Proof.Machine

/-- `T_START_LOW`: ticks the line is driven low by the start request (R6). -/
def tStartLow : Nat := 20000

/-- `T_START_HIGH`: ticks the line is driven high after the low window (R6). -/
def tStartHigh : Nat := 30

/-- `B_ACK_LOW`: bound of the acknowledgement low measurement (R6). -/
def bAckLow : Nat := 83

/-- `B_ACK_HIGH`: bound of the acknowledgement high measurement (R6). -/
def bAckHigh : Nat := 87

/-- `B_BIT_LOW`: bound of each inter-bit low separator (R6). -/
def bBitLow : Nat := 50

/-- `B_BIT_HIGH`: bound of each data-pulse high measurement (R6). -/
def bBitHigh : Nat := 70

/-- `THRESH`: a data pulse counted "greater than 40" ticks is a 1 (R6). -/
def thresh : Nat := 40

/-- `N_BITS`: payload bits per frame (R6). -/
def nBits : Nat := 40

/-- `N_BYTES`: payload bytes per frame (R6). -/
def nBytes : Nat := 5

/-- The constant operands `L` and `B` of a phase, each "fixed by the state" (R48); no other state is a phase. -/
def phaseOperands : St → Option (Level × Nat)
  | .awaitAck1 => some (.low, bAckLow)
  | .awaitAck2 => some (.high, bAckHigh)
  | .bitLow    => some (.low, bBitLow)
  | .bitHigh   => some (.high, bBitHigh)
  | _          => none

/-- `n[5:3]`, "the byte index `n div 8`" (R49). -/
def byteIndex (n : BitIndex) : Nat := (n.extractLsb' 3 3).toNat

/-- `n[2:0]`, "the position counted from the most significant bit" (R49). -/
def msbPosition (n : BitIndex) : Nat := (n.extractLsb' 0 3).toNat

/-- The target bit number `7 - n[2:0]` (R30, R49). -/
def targetBit (n : BitIndex) : Nat := 7 - msbPosition n

end Sys2Proof.Machine
end

