-- ==== Sys2Proof/Machine/Ops.lean ====
section
/-! DEFINITION. The shared operations over the registers: sampling the inputs, counting, placing a bit, raising an error
and returning from one, the measurement of a phase, the commit, and the reset. "All writes in one step are simultaneous:
every right-hand side reads the state of the current tick" (R9). -/

namespace Sys2Proof.Machine

/-! ## Inputs (R19, R43; log entries 1 and 2) -/

/-- The input word sampled `k` ticks from now: the queue's, or a free value past its end. -/
def State.inputAt (s : State) (k : Nat) : InputWord :=
  match s.inputs[k]? with
  | some i => i
  | none   => InputWord.ofBits (Config.freeInput (s.tick + k))

/-- The input word sampled at this tick (R43). -/
def State.inputNow (s : State) : InputWord := s.inputAt 0

/-- `line_in` at this tick (R19). -/
def State.lineIn (s : State) : Level := s.inputNow.lineIn

/-- The control word of this tick, from the sampled `rst` and `start` and the register `st` (R46). -/
def State.controlWord (s : State) : BitVec 6 := Sys2Proof.controlWord s.inputNow.rst s.inputNow.start s.st

/-- The tick is over: its input word is gone and the next one is due. "Every input is sampled once per tick" (R19). -/
def State.consumeInput (s : State) : State := { s with inputs := s.inputs.tail, tick := s.tick + 1 }

/-- The control word of this tick made `c`: `st` holds its code, and the outside world presents its `rst` and `start` with
the line low, in the place of the input word that was due (log entry 3). -/
def State.presentControlWord (s : State) (c : BitVec 6) : State :=
  { s with
    st     := St.ofCode (c.extractLsb' 0 4)
    inputs := { rst := c.getLsbD 5, start := c.getLsbD 4, lineIn := .low } :: s.inputs.tail }

/-! ## Counting and moving on -/

/-- `cnt <- cnt + 1`. The register is 15 bits wide (R13); it wraps only from a value no reachable state holds (R28, log
entry 6). -/
def State.countUp (s : State) : State := { s with cnt := s.cnt + 1 }

/-- `st <- S`, `cnt <- c`: the entry of a busy state with its first count. -/
def State.enter (s : State) (S : St) (c : Count) : State := { s with st := S, cnt := c }

/-- A window of `T` ticks counted from 0, then the state `S` with `cnt = 0`: the body of R61 and R62. -/
def State.holdWindow (s : State) (T : Nat) (S : St) : State :=
  if s.cnt.toNat = T - 1 then s.enter S 0 else s.countUp

/-! ## The frame buffer (R14, R30) -/

/-- `frame[k][b] <- 1`; the other bits keep their values (R75). A byte index past 4 addresses no register, so nothing is
written (log entry 5: no reachable state has one). -/
def setFrameBit (f : Vector Byte 5) (k b : Nat) : Vector Byte 5 :=
  if h : k < 5 then f.set k (f[k] ||| 1#8 <<< b) h else f

/-- The 1 of slot `n` placed: `frame[n[5:3]][7 - n[2:0]] <- 1` (R30, R75). -/
def State.placeOne (s : State) : State :=
  { s with frame := setFrameBit s.frame (byteIndex s.n) (targetBit s.n) }

/-! ## Errors: entry and return (60_exceptions.md section 2) -/

/-- The failure state of an error kind (R85). -/
def ErrorKind.failState : ErrorKind → St
  | .timeout          => .failTimeout
  | .checksumMismatch => .failChecksum

/-- Failure entry (R89): `st` becomes the kind's failure state and "The failing step writes nothing else". -/
def State.raise (s : State) (k : ErrorKind) : State := { s with st := k.failState }

/-- A read begun (R54), which is also the return from a failure (R91): `frame` zeroed, `n <- 0`, `cnt <- 0`,
`st <- REQ_LOW`. -/
def State.beginRead (s : State) : State :=
  { s with st := .reqLow, cnt := 0, n := 0, frame := zeroFrame }

/-! ## The measurement of a phase (R65) -/

/-- MEASURE(L, B), one tick of a phase (R65): a sample at level `L` counts, or raises Timeout when `cnt = B`; a sample away
from `L` ends the phase with the result `r = cnt`. -/
def State.measure (s : State) (L : Level) (B : Nat) (endPhase : Count → State → State) : State :=
  if s.lineIn = L then
    if s.cnt.toNat = B then s.raise .timeout else s.countUp
  else endPhase s.cnt s

/-! ## The Reading Store -/

/-- `(frame[0] + frame[1] + frame[2] + frame[3]) mod 256` (R79): bytes added exactly, then the low 8 bits. -/
def frameSum (f : Vector Byte 5) : Byte :=
  BitVec.ofNat 8 (f[0].toNat + f[1].toNat + f[2].toNat + f[3].toNat)

/-- COMMIT (R80): the five bytes, `valid` and `st` in one step. -/
def State.commit (s : State) : State :=
  { s with
    storeHi := s.frame[0]
    storeHf := s.frame[1]
    storeTi := s.frame[2]
    storeTf := s.frame[3]
    storeCk := s.frame[4]
    valid   := true
    st      := .done }

/-! ## Reset -/

/-- Every register at its reset value (R27, R99). The outside world's inputs are no register and go on (log entry 2). -/
def State.resetRegisters (s : State) : State :=
  { State.reset with inputs := s.inputs, tick := s.tick }

end Sys2Proof.Machine
end

