-- ==== Sys2Proof/Machine/CallerInterface.lean ====
section
/-! DEFINITION. The operations in which the caller acts on the block (40_interface.md): WAIT and START. -/

namespace Sys2Proof.Machine

/-- WAIT: "(no register written)" (R53). -/
def execWait (s : State) : Host.Outcome State Fault Refusal := .next s

/-- START: begin a read (R54). -/
def execStart (s : State) : Host.Outcome State Fault Refusal := .next s.beginRead

end Sys2Proof.Machine
end

