-- ==== Sys2Proof/Machine/ChecksumValidator.lean ====
section
/-! DEFINITION. VALIDATE and its two ends, COMMIT and ChecksumMismatch (44_checksum_validator.md). -/

namespace Sys2Proof.Machine

/-- VALIDATE: the sum of the four data bytes mod 256 against `frame[4]` (R79); a match commits (R80), a difference raises
ChecksumMismatch (R81). -/
def execValidate (s : State) : Host.Outcome State Fault Refusal :=
  .next (if frameSum s.frame = s.frame[4] then s.commit else s.raise .checksumMismatch)

end Sys2Proof.Machine
end

