-- ==== Sys2Proof/Machine/LineDriver.lean ====
section
/-! DEFINITION. The start request on the line (41_line_driver.md): REQ_LOW and REQ_HIGH. -/

namespace Sys2Proof.Machine

/-- REQ_LOW: the driven-low hold window of `T_START_LOW` ticks (R61). -/
def execReqLow (s : State) : Host.Outcome State Fault Refusal := .next (s.holdWindow tStartLow .reqHigh)

/-- REQ_HIGH: the driven-high settle window of `T_START_HIGH` ticks, then the release (R62). -/
def execReqHigh (s : State) : Host.Outcome State Fault Refusal := .next (s.holdWindow tStartHigh .awaitAck1)

end Sys2Proof.Machine
end

