-- ==== Sys2Proof/Machine/BitAssembler.lean ====
section
/-! DEFINITION. The bit classifier and the bit assembler (43_bit_assembler.md): CLASSIFY, the end of a BIT_HIGH phase, and
ASSEMBLE. -/

namespace Sys2Proof.Machine

/-- CLASSIFY(r): 1 if `r > THRESH`, 0 otherwise (R74). -/
def classify (r : Count) : Bool := decide (thresh < r.toNat)

/-- The last slot ends the payload: ASSEMBLING with `cnt = 0`; any other slot is followed by the next one's BIT_LOW, whose
first sample was this one (R75, R67). -/
def State.nextSlot (s : State) : State :=
  if s.n.toNat = nBits - 1 then s.enter .assembling 0
  else { s.enter .bitLow 1 with n := s.n + 1 }

/-- The end of a BIT_HIGH phase: classify, place and advance (R75). "A 0 writes nothing". -/
def endBitHigh (r : Count) (s : State) : State :=
  if classify r then s.placeOne.nextSlot else s.nextSlot

/-- ASSEMBLE: `st <- VALIDATING`, no data changed (R77). -/
def execAssemble (s : State) : Host.Outcome State Fault Refusal := .next { s with st := .validating }

end Sys2Proof.Machine
end

