-- ==== Sys2Proof/Machine/PulseTimer.lean ====
section
/-! DEFINITION. The four phases (42_pulse_timer.md section 2): ACK1, ACK2, BIT_LOW and BIT_HIGH. Every phase but ACK1 starts
with `cnt = 1`, since the sample that ended the phase before it is its own first (R67). -/

namespace Sys2Proof.Machine

/-- ACK1: MEASURE(0, 83), then AWAIT_ACK2 (R68). -/
def execAck1 (s : State) : Host.Outcome State Fault Refusal :=
  .next (s.measure .low bAckLow fun _ s => s.enter .awaitAck2 1)

/-- ACK2: MEASURE(1, 87), then BIT_LOW (R69). -/
def execAck2 (s : State) : Host.Outcome State Fault Refusal :=
  .next (s.measure .high bAckHigh fun _ s => s.enter .bitLow 1)

/-- BIT_LOW: MEASURE(0, 50), then BIT_HIGH (R70). -/
def execBitLow (s : State) : Host.Outcome State Fault Refusal :=
  .next (s.measure .low bBitLow fun _ s => s.enter .bitHigh 1)

/-- BIT_HIGH: MEASURE(1, 70), then the classify-and-place step of R75 (R71). -/
def execBitHigh (s : State) : Host.Outcome State Fault Refusal :=
  .next (s.measure .high bBitHigh endBitHigh)

end Sys2Proof.Machine
end

