-- ==== Sys2Proof/Machine/ResetReserved.lean ====
section
/-! DEFINITION. RESET (70_reset_and_hazards.md R99) and RSV, the recovery from a reserved code (30_encoding.md R50). -/

namespace Sys2Proof.Machine

/-- RESET: "in any state and whatever `start` and `line_in` are, the block takes the reset values" (R99). -/
def execReset (s : State) : Host.Outcome State Fault Refusal := .next s.resetRegisters

/-- RSV: "`st <- IDLE`, with every other register unchanged" (R50). -/
def execRsv (s : State) : Host.Outcome State Fault Refusal := .next { s with st := .idle }

end Sys2Proof.Machine
end

