-- ==== Sys2Proof/Machine/Dispatch.lean ====
section
/-! DEFINITION. One arm per operation of the operation map (30_encoding.md R46). -/

namespace Sys2Proof.Machine

def exec (i : Instr) (s : State) : Host.Outcome State Fault Refusal :=
  match i with
  | .reset _ _ => Sys2Proof.Machine.execReset s
  | .wait _ => Sys2Proof.Machine.execWait s
  | .start _ => Sys2Proof.Machine.execStart s
  | .reqLow _ => Sys2Proof.Machine.execReqLow s
  | .reqHigh _ => Sys2Proof.Machine.execReqHigh s
  | .ack1 _ => Sys2Proof.Machine.execAck1 s
  | .ack2 _ => Sys2Proof.Machine.execAck2 s
  | .bitLow _ => Sys2Proof.Machine.execBitLow s
  | .bitHigh _ => Sys2Proof.Machine.execBitHigh s
  | .assemble _ => Sys2Proof.Machine.execAssemble s
  | .validate _ => Sys2Proof.Machine.execValidate s
  | .rsv _ _ => Sys2Proof.Machine.execRsv s

end Sys2Proof.Machine
end

