-- ==== Sys2Proof/Machine/Step.lean ====
section
/-! DEFINITION. One step is one tick (00_scope.md R9): the control word of the tick selects an operation, the operation acts
on the registers, and the tick's input word is consumed. -/

namespace Sys2Proof.Machine

/-- One tick (R9): the operation the control word selects (R46), then the next input word is due. -/
def step (s : State) : Host.Outcome State Fault Refusal :=
  match exec (decode s.controlWord) s with
  | .next t    => .next t.consumeInput
  | .fault r   => .fault r
  | .refused r => .refused r

/-- `s` with the control word `w` presented at the next step: its `st` in the state register, its `rst` and `start` at the
inputs (log entry 3). Of the `nbits` bits of `w` the control word is the low 6 (log entry 4). -/
def State.withFetchWord (s : State) (nbits w : Nat) : State :=
  s.presentControlWord (BitVec.ofNat 6 (w % 2 ^ nbits))

/-- `k` ticks. -/
def runTicks : Nat → State → Host.Outcome State Fault Refusal
  | 0, s => .next s
  | k + 1, s =>
    match step s with
    | .next t    => runTicks k t
    | .fault r   => .fault r
    | .refused r => .refused r

end Sys2Proof.Machine
end

