-- ==== Sys2Proof/Machine/Stimulus.lean ====
section
/-! DEFINITION. The stimulus notation of 30_encoding.md R52, in which the spec writes the caller's and the sensor's inputs: a
stimulus expands to the input words of consecutive ticks, ready for `State.inputs`. No operation reads this file. -/

namespace Sys2Proof.Machine

/-- The five stimulus mnemonics (R52). -/
inductive StimulusOp where
  | rst
  | start
  | startL
  | h
  | l
  deriving DecidableEq, Repr

/-- The input word of a stimulus mnemonic, from its octal digit (R52). -/
def StimulusOp.digit : StimulusOp → BitVec 3
  | .rst    => 5
  | .start  => 3
  | .startL => 2
  | .h      => 1
  | .l      => 0

/-- One line of a stimulus: a mnemonic with its count, or the shorthand `BITS b0 b1 b2 b3 b4` (R52). -/
inductive StimulusLine where
  | run (op : StimulusOp) (count : Nat)
  | bits (b0 b1 b2 b3 b4 : Byte)
  deriving DecidableEq, Repr

/-- `count` ticks of one mnemonic. -/
def StimulusOp.ticks (op : StimulusOp) (count : Nat) : List InputWord :=
  List.replicate count (InputWord.ofBits op.digit)

/-- One bit slot: "`L 50` followed by `H 28` for a 0 or `H 70` for a 1" (R52). -/
def slotTicks (bit : Bool) : List InputWord :=
  StimulusOp.l.ticks 50 ++ StimulusOp.h.ticks (if bit then 70 else 28)

/-- The eight slots of a byte, "most significant bit first" (R52). -/
def byteTicks (b : Byte) : List InputWord :=
  [7, 6, 5, 4, 3, 2, 1, 0].flatMap fun k => slotTicks (b.getLsbD k)

/-- The ticks of one line (R52). -/
def StimulusLine.ticks : StimulusLine → List InputWord
  | .run op count => op.ticks count
  | .bits b0 b1 b2 b3 b4 => byteTicks b0 ++ byteTicks b1 ++ byteTicks b2 ++ byteTicks b3 ++ byteTicks b4

/-- The ticks of a stimulus; "Tick 0 is the first tick of the first line" (R52). -/
def stimulusTicks (lines : List StimulusLine) : List InputWord := lines.flatMap StimulusLine.ticks

/-- One more tick in front of a run-length list. -/
def pushRun (i : InputWord) : List (BitVec 3 × Nat) → List (BitVec 3 × Nat)
  | [] => [(i.bits, 1)]
  | (d, k) :: runs => if d = i.bits then (d, k + 1) :: runs else (i.bits, 1) :: (d, k) :: runs

/-- "A stimulus is encoded as its run-length list of (octal digit, count)" (R52). -/
def runLengths : List InputWord → List (BitVec 3 × Nat)
  | [] => []
  | i :: rest => pushRun i (runLengths rest)

end Sys2Proof.Machine
end

