-- ==== Sys2Proof/Machine/Flags.lean ====
section
/-! DEFINITION. The flags the caller reads: `busy` (R21), `status` (R22, R45) and `valid_out` (R25). -/

namespace Sys2Proof.Machine

/-- The five values of `status` (R45); the codes 5 to 7 "are never produced" (R51). -/
inductive Status where
  | idle
  | busy
  | ok
  | timeout
  | checksum
  deriving DecidableEq, Repr

/-- The status encoding `status[2:0]` (R45). -/
def Status.code : Status → BitVec 3
  | .idle     => 0
  | .busy     => 1
  | .ok       => 2
  | .timeout  => 3
  | .checksum => 4

/-- `busy`: 1 exactly in the busy states (R21). -/
def State.busy (s : State) : Bool :=
  match s.st with
  | .reqLow | .reqHigh | .awaitAck1 | .awaitAck2 | .bitLow | .bitHigh | .assembling | .validating => true
  | .idle | .done | .failTimeout | .failChecksum | .reserved _ => false

/-- `status` as a function of `st` (R22); a reserved state gives 0. -/
def State.status (s : State) : Status :=
  match s.st with
  | .idle | .reserved _ => .idle
  | .reqLow | .reqHigh | .awaitAck1 | .awaitAck2 | .bitLow | .bitHigh | .assembling | .validating => .busy
  | .done         => .ok
  | .failTimeout  => .timeout
  | .failChecksum => .checksum

/-- `valid_out` (R25). -/
def State.validOut (s : State) : Bool := s.valid

end Sys2Proof.Machine
end

