-- ==== Sys2Proof/Machine/Outputs.lean ====
section
/-! DEFINITION. The output ports (10_state.md section 2) and the caller's accessors (40_interface.md section 2). "Every output
is a function of the current state alone (a Moore machine)" (R26). -/

namespace Sys2Proof.Machine

/-- `line_oe`: the block drives the line (R20). -/
def State.lineOe (s : State) : Bool :=
  match s.st with
  | .reqLow | .reqHigh => true
  | _ => false

/-- `line_out`: the level driven when `line_oe` is 1, and 0 otherwise (R20). -/
def State.lineOut (s : State) : Level :=
  match s.st with
  | .reqHigh => .high
  | _ => .low

/-- What the pad puts on the line for a drive form, `none` when it leaves it: in `open_drain`, `line_out = 1` "means the
block drives nothing and the pull-up gives the high" (92_eei_decisions.md D30). -/
def State.padDrives (s : State) (p : PadDrive) : Option Level :=
  if s.lineOe then
    match p, s.lineOut with
    | .openDrain, .high => none
    | _, l => some l
  else none

/-- The tenths of two bytes: `zext_12(a) * 10 + zext_12(b)` (R24). -/
def tenths (a b : Byte) : BitVec 12 := a.setWidth 12 * 10 + b.setWidth 12

/-- `hum_x10` (R24, R56). -/
def State.humX10 (s : State) : BitVec 12 := tenths s.storeHi s.storeHf

/-- `temp_x10` (R24, R57). -/
def State.tempX10 (s : State) : BitVec 12 := tenths s.storeTi s.storeTf

/-- The humidity of the stored reading, "exactly" the rational number `store_hi + store_hf / 10` (R82). -/
def State.humidity (s : State) : Rat := s.storeHi.toNat + s.storeHf.toNat / 10

/-- The temperature of the stored reading, `store_ti + store_tf / 10` (R83). "No sign is applied" (R57). -/
def State.temperature (s : State) : Rat := s.storeTi.toNat + s.storeTf.toNat / 10

/-- `last_checksum_byte()` (R58). -/
def State.lastChecksumByte (s : State) : Byte := s.storeCk

/-- All output ports at one tick (R20 to R25). -/
structure Outputs where
  lineOe   : Bool
  lineOut  : Level
  busy     : Bool
  status   : BitVec 3
  humInt   : Byte
  humFrac  : Byte
  tempInt  : Byte
  tempFrac : Byte
  chksum   : Byte
  humX10   : BitVec 12
  tempX10  : BitVec 12
  validOut : Bool
  deriving DecidableEq, Repr

/-- The snapshot the caller sees at one tick (R26, R39). -/
def State.outputs (s : State) : Outputs where
  lineOe   := s.lineOe
  lineOut  := s.lineOut
  busy     := s.busy
  status   := s.status.code
  humInt   := s.storeHi
  humFrac  := s.storeHf
  tempInt  := s.storeTi
  tempFrac := s.storeTf
  chksum   := s.lastChecksumByte
  humX10   := s.humX10
  tempX10  := s.tempX10
  validOut := s.validOut

end Sys2Proof.Machine
end

