-- ==== Sys2Proof/Safety.lean ====
section
/-! DEFINITION. The terms in which claims about the block are stated: what two states share, what the inputs of the coming
ticks are, and the invariants of a safe run (10_state.md R16, R17, R28; 40_interface.md R58; 43_bit_assembler.md R76). -/

namespace Sys2Proof.Machine

/-! ## What two states share -/

/-- The Reading Store and `valid` are the same in both (R15, R16). -/
def SameStore (s t : State) : Prop :=
  t.storeHi = s.storeHi ∧ t.storeHf = s.storeHf ∧ t.storeTi = s.storeTi ∧ t.storeTf = s.storeTf ∧
    t.storeCk = s.storeCk ∧ t.valid = s.valid

/-- The inputs still to come and the tick index are the same in both: an operation samples, `step` consumes. -/
def SameInputs (s t : State) : Prop := t.inputs = s.inputs ∧ t.tick = s.tick

/-- The Reading Store holds the frame `f`, marked valid (R80). -/
def StoreHolds (t : State) (f : Vector Byte 5) : Prop :=
  t.storeHi = f[0] ∧ t.storeHf = f[1] ∧ t.storeTi = f[2] ∧ t.storeTf = f[3] ∧ t.storeCk = f[4] ∧ t.valid = true

/-- The Reading Store holds its reset value (R27). -/
def StoreCleared (t : State) : Prop :=
  t.storeHi = 0 ∧ t.storeHf = 0 ∧ t.storeTi = 0 ∧ t.storeTf = 0 ∧ t.storeCk = 0 ∧ t.valid = false

/-- Every register holds its reset value, the table of R27. -/
def RegistersReset (t : State) : Prop :=
  t.st = .idle ∧ t.cnt = 0 ∧ t.n = 0 ∧ t.frame = #v[0x00, 0x00, 0x00, 0x00, 0x00] ∧ StoreCleared t

/-- Bit `i` of the received stream, bit `7 - (i mod 8)` of `frame[i div 8]` (R30). -/
def streamBit (f : Vector Byte 5) (i : Nat) : Bool := (f[i / 8]?.getD 0).getLsbD (7 - i % 8)

/-- The checksum of a frame is right: `(frame[0] + frame[1] + frame[2] + frame[3]) mod 256 = frame[4]` (R79). -/
def ChecksumMatches (f : Vector Byte 5) : Prop :=
  (f[0].toNat + f[1].toNat + f[2].toNat + f[3].toNat) % 256 = f[4].toNat

/-! ## The inputs of the coming ticks -/

/-- No reset is sampled in the next `k` ticks. -/
def NoReset (s : State) (k : Nat) : Prop := ∀ j < k, (s.inputAt j).rst = false

/-- The line is at level `L` for the `k` samples that begin `a` ticks from now. -/
def LineHolds (s : State) (a k : Nat) (L : Level) : Prop := ∀ j < k, (s.inputAt (a + j)).lineIn = L

/-- The tick at which slot `i`'s low begins, counted from the first sample after release (R112):
`a0 + a1 + sum_{j<i} (l_j + h_j)`. -/
def slotStart (a0 a1 : Nat) (l h : Nat → Nat) : Nat → Nat
  | 0     => a0 + a1
  | i + 1 => slotStart a0 a1 l h i + l i + h i

/-- The lengths of a well-formed response lie within the accepted ranges of R108, with `a0 >= 1` (R112). -/
def AcceptedLengths (a0 a1 : Nat) (l h : Nat → Nat) : Prop :=
  1 ≤ a0 ∧ a0 ≤ 83 ∧ 1 ≤ a1 ∧ a1 ≤ 87 ∧ ∀ i < 40, 1 ≤ l i ∧ l i ≤ 50 ∧ 1 ≤ h i ∧ h i ≤ 70

/-- The line trace of a well-formed response from tick `ta` on: low `a0`, high `a1`, then 40 slots of low `l i` and high
`h i`, then low for at least one tick (R112). -/
def LineAnswers (s : State) (ta a0 a1 : Nat) (l h : Nat → Nat) : Prop :=
  LineHolds s ta a0 .low ∧ LineHolds s (ta + a0) a1 .high ∧
    (∀ i < 40, LineHolds s (ta + slotStart a0 a1 l h i) (l i) .low ∧
      LineHolds s (ta + slotStart a0 a1 l h i + l i) (h i) .high) ∧
    LineHolds s (ta + slotStart a0 a1 l h 40) 1 .low

/-- A read begins at this tick: `rst = 0`, `start = 1`, in a waiting state (R54). -/
def ReadBegins (s : State) : Prop :=
  s.st.isWaiting = true ∧ (s.inputAt 0).rst = false ∧ (s.inputAt 0).start = true

/-- After `k` ticks the block is in a state with `P`. -/
def After (k : Nat) (s : State) (P : State → Prop) : Prop := ∃ t, runTicks k s = .next t ∧ P t

/-! ## The shape of a phase's tick -/

/-- One tick of the phase operation `i` with expected level `L` and bound `B`, which always answers a next state (R65): on a
sample at `L` the count goes up by one or, at the bound, Timeout is raised and nothing else written (R89); on a sample
away from `L` the phase ends, and `ended s t` says how. The Reading Store and the inputs are not touched. -/
def PhaseTick (i : Instr) (L : Level) (B : Nat) (ended : State → State → Prop) : Prop :=
  ∀ s : State, ∃ t, exec i s = .next t ∧ SameStore s t ∧ SameInputs s t ∧
    (s.lineIn = L → s.cnt.toNat = B →
      t.st = .failTimeout ∧ t.cnt = s.cnt ∧ t.n = s.n ∧ t.frame = s.frame) ∧
    (s.lineIn = L → s.cnt.toNat ≠ B →
      t.st = s.st ∧ t.cnt = s.cnt + 1 ∧ t.n = s.n ∧ t.frame = s.frame) ∧
    (s.lineIn ≠ L → ended s t)

/-- A phase ended by moving to the state `S`, its first sample already counted (R67), with `n` and the frame kept. -/
def MovesTo (S : St) (s t : State) : Prop := t.st = S ∧ t.cnt = 1 ∧ t.n = s.n ∧ t.frame = s.frame

/-- The end of a BIT_HIGH phase (R75): stream bit `n` is set when the count is greater than 40 and every other bit of the
frame is as before (R30); then the next slot, or ASSEMBLING after slot 39. -/
def BitPlaced (s t : State) : Prop :=
  (∀ i < 40, streamBit t.frame i =
    (streamBit s.frame i || (decide (i = s.n.toNat) && decide (40 < s.cnt.toNat)))) ∧
  (s.n.toNat = 39 → t.st = .assembling ∧ t.cnt = 0 ∧ t.n = s.n) ∧
  (s.n.toNat ≠ 39 → t.st = .bitLow ∧ t.cnt = 1 ∧ t.n = s.n + 1)

/-- A read has just begun: the state a START leaves, with its outputs (R54). -/
def ReadBegun (s t : State) : Prop :=
  t.st = .reqLow ∧ t.cnt = 0 ∧ t.n = 0 ∧ t.frame = #v[0x00, 0x00, 0x00, 0x00, 0x00] ∧ SameStore s t ∧
    t.busy = true ∧ t.status.code = 1 ∧ t.lineOe = true ∧ t.lineOut = .low

/-- Every register is as before (R11). -/
def SameRegisters (s t : State) : Prop :=
  t.st = s.st ∧ t.cnt = s.cnt ∧ t.n = s.n ∧ t.frame = s.frame ∧ SameStore s t

/-! ## Invariants of a safe run -/

/-- The register bounds of every reachable state, the list of R28. -/
def RegisterBounds (s : State) : Prop :=
  s.st.isReserved = false ∧ s.n.toNat ≤ 39 ∧
    (s.st = .reqLow → s.cnt.toNat ≤ 20000 - 1) ∧
    (s.st = .reqHigh → s.cnt.toNat ≤ 30 - 1) ∧
    (s.st = .awaitAck1 → s.cnt.toNat ≤ 83) ∧
    (s.st = .awaitAck2 → 1 ≤ s.cnt.toNat ∧ s.cnt.toNat ≤ 87) ∧
    (s.st = .bitLow → 1 ≤ s.cnt.toNat ∧ s.cnt.toNat ≤ 50) ∧
    (s.st = .bitHigh → 1 ≤ s.cnt.toNat ∧ s.cnt.toNat ≤ 70)

/-- What the Reading Store holds: a checksummed reading when `valid`, its reset value when not (R16); the identity of R58
either way; no reading in IDLE ("no read has ended since reset", R45), and the frame itself in DONE (R80). -/
def StoredReading (s : State) : Prop :=
  s.st.isReserved = false ∧
    (s.valid = false → StoreCleared s) ∧
    s.storeCk.toNat = (s.storeHi.toNat + s.storeHf.toNat + s.storeTi.toNat + s.storeTf.toNat) % 256 ∧
    (s.st = .idle → s.valid = false) ∧
    (s.st = .done → StoreHolds s s.frame)

/-- How far a read has come: `n` and the frame in each part of it (R17, R36, R76). Slots not yet ended have placed nothing. -/
def ReadProgress (s : State) : Prop :=
  s.st.isReserved = false ∧ s.n.toNat ≤ 39 ∧
    (s.st = .idle ∨ s.st = .reqLow ∨ s.st = .reqHigh ∨ s.st = .awaitAck1 ∨ s.st = .awaitAck2 →
      s.n = 0 ∧ s.frame = #v[0x00, 0x00, 0x00, 0x00, 0x00]) ∧
    (s.st = .bitLow ∨ s.st = .bitHigh → ∀ i < 40, s.n.toNat ≤ i → streamBit s.frame i = false) ∧
    (s.st = .assembling ∨ s.st = .validating ∨ s.st = .done ∨ s.st = .failChecksum → s.n.toNat = 39)

/-- A safe state: what every state reached from reset is. -/
def Safe (s : State) : Prop := RegisterBounds s ∧ StoredReading s ∧ ReadProgress s

end Sys2Proof.Machine
end

