-- ==== Sys2Proof/Certificates/Slice0/Obligations.lean ====
section
/-! DEFINITION. The statements for the provers. Tick 0 of a multi-tick statement is the tick of the state `s` itself, so
`After k s P` speaks of the state `k` ticks later. -/

open Sys2Proof Sys2Proof.Machine

/-! ## Encoding -/

/-- R46: the layout of the control word, and for each row the control words that select it. -/
def Obligations.ControlWordSelectsItsRow : Prop :=
  (∀ s : State, s.controlWord.getLsbD 5 = (s.inputAt 0).rst ∧ s.controlWord.getLsbD 4 = (s.inputAt 0).start ∧
    s.controlWord.extractLsb' 0 4 = s.st.code) ∧
  ∀ c : BitVec 6,
    ((decode c).mnemonic = "RESET" ↔ c &&& 0b100000 = 0b100000) ∧
    ((decode c).mnemonic = "WAIT" ↔ c &&& 0b111100 = 0b000000) ∧
    ((decode c).mnemonic = "START" ↔ c &&& 0b111100 = 0b010000) ∧
    ((decode c).mnemonic = "REQ_LOW" ↔ c &&& 0b101111 = 0b000100) ∧
    ((decode c).mnemonic = "REQ_HIGH" ↔ c &&& 0b101111 = 0b000101) ∧
    ((decode c).mnemonic = "ACK1" ↔ c &&& 0b101111 = 0b000110) ∧
    ((decode c).mnemonic = "ACK2" ↔ c &&& 0b101111 = 0b000111) ∧
    ((decode c).mnemonic = "BIT_LOW" ↔ c &&& 0b101111 = 0b001000) ∧
    ((decode c).mnemonic = "BIT_HIGH" ↔ c &&& 0b101111 = 0b001001) ∧
    ((decode c).mnemonic = "ASSEMBLE" ↔ c &&& 0b101111 = 0b001010) ∧
    ((decode c).mnemonic = "VALIDATE" ↔ c &&& 0b101111 = 0b001011) ∧
    ((decode c).mnemonic = "RSV" ↔ c &&& 0b101100 = 0b001100)

/-- R47: RESET first, then the state, then `start` in a waiting state; and no control word's operation faults. -/
def Obligations.DecodePriority : Prop :=
  (∀ start st, decode (controlWord true start st) = .reset start st) ∧
  (∀ st : St, st.isWaiting = true →
    decode (controlWord false true st) = .start st ∧ decode (controlWord false false st) = .wait st) ∧
  (∀ start, decode (controlWord false start .reqLow) = .reqLow start ∧
    decode (controlWord false start .reqHigh) = .reqHigh start ∧
    decode (controlWord false start .awaitAck1) = .ack1 start ∧
    decode (controlWord false start .awaitAck2) = .ack2 start ∧
    decode (controlWord false start .bitLow) = .bitLow start ∧
    decode (controlWord false start .bitHigh) = .bitHigh start ∧
    decode (controlWord false start .assembling) = .assemble start ∧
    decode (controlWord false start .validating) = .validate start) ∧
  (∀ start k, decode (controlWord false start (.reserved k)) = .rsv start (.reserved k)) ∧
  (∀ (c : BitVec 6) (s : State), ∃ t, exec (decode c) s = .next t)

/-- Decoding and encoding agree in both directions (R46, R47): no bit of a control word is dropped. -/
def Obligations.DecodeEncodeRoundTrip : Prop :=
  (∀ i : Instr, i.WellFormed = true → decode (encode i) = i) ∧
  (∀ c : BitVec 6, encode (decode c) = c ∧ (decode c).WellFormed = true)

/-- Control words written out from the pattern column of R46, one or two a row. -/
def Obligations.WrittenOutWordsDecode : Prop :=
  decode 0b100000 = .reset false .idle ∧ decode 0b111011 = .reset true .validating ∧
  decode 0b000001 = .wait .done ∧ decode 0b000000 = .wait .idle ∧
  decode 0b010010 = .start .failTimeout ∧ decode 0b010011 = .start .failChecksum ∧
  decode 0b000100 = .reqLow false ∧ decode 0b010101 = .reqHigh true ∧
  decode 0b000110 = .ack1 false ∧ decode 0b010111 = .ack2 true ∧
  decode 0b001000 = .bitLow false ∧ decode 0b011001 = .bitHigh true ∧
  decode 0b001010 = .assemble false ∧ decode 0b011011 = .validate true ∧
  decode 0b001101 = .rsv false (.reserved 1)

/-- R43: the input word `{rst, start, line_in}`, bit by bit and in both directions. -/
def Obligations.InputWordLayout : Prop :=
  (∀ i : InputWord, i.bits.getLsbD 2 = i.rst ∧ i.bits.getLsbD 1 = i.start ∧
    (i.bits.getLsbD 0 = true ↔ i.lineIn = .high) ∧ InputWord.ofBits i.bits = i) ∧
  ∀ b : BitVec 3, (InputWord.ofBits b).bits = b

/-- R44: the state encoding, and its inverse. -/
def Obligations.StateEncoding : Prop :=
  St.code .idle = 0 ∧ St.code .done = 1 ∧ St.code .failTimeout = 2 ∧ St.code .failChecksum = 3 ∧
  St.code .reqLow = 4 ∧ St.code .reqHigh = 5 ∧ St.code .awaitAck1 = 6 ∧ St.code .awaitAck2 = 7 ∧
  St.code .bitLow = 8 ∧ St.code .bitHigh = 9 ∧ St.code .assembling = 10 ∧ St.code .validating = 11 ∧
  (∀ k : BitVec 2, (St.code (.reserved k)).toNat = 12 + k.toNat) ∧
  (∀ st : St, St.ofCode st.code = st) ∧ (∀ c : BitVec 4, (St.ofCode c).code = c) ∧
  (∀ st : St, st.isWaiting = true ↔ st.code.extractLsb' 2 2 = 0b00) ∧
  (∀ st : St, st.isBusy = true ↔ 4 ≤ st.code.toNat ∧ st.code.toNat ≤ 11)

/-- The control word presented by `withFetchWord` is the one the next step decodes, whatever the state, and the registers
but `st` are as before (the model's own interface: log entries 3 and 4). -/
def Obligations.PresentedControlWordIsFetched : Prop :=
  ∀ (s : State) (w : Nat), w < 64 →
    (s.withFetchWord 8 w).controlWord = BitVec.ofNat 6 w ∧
    decodeTableWord 8 w = some (decode (s.withFetchWord 8 w).controlWord) ∧
    (s.withFetchWord 8 w).cnt = s.cnt ∧ (s.withFetchWord 8 w).n = s.n ∧ (s.withFetchWord 8 w).frame = s.frame ∧
    SameStore s (s.withFetchWord 8 w) ∧ (s.withFetchWord 8 w).tick = s.tick ∧
    ∀ k, 1 ≤ k → (s.withFetchWord 8 w).inputAt k = s.inputAt k

/-- A byte with bit 6 or 7 set is no control word and is rejected by name; any other byte decodes (the model's own byte
form: log entry 4). -/
def Obligations.OnlyControlWordsDecode : Prop :=
  ∀ b : Byte,
    (b.getLsbD 6 = true ∨ b.getLsbD 7 = true → decodeByte b = .error .notAControlWord) ∧
    (b.getLsbD 6 = false → b.getLsbD 7 = false → decodeByte b = .ok (decode (b.extractLsb' 0 6)))

/-! ## The step -/

/-- R9, R46: a step is the operation that the tick's control word encodes, after which the tick's input word is gone. -/
def Obligations.StepRunsTheDecodedInstruction : Prop :=
  ∀ (s t : State) (i : Instr), i.WellFormed = true → s.controlWord = encode i → exec i s = .next t →
    step s = .next { t with inputs := t.inputs.tail, tick := t.tick + 1 }

/-- R47, R85: no step faults or is refused, in any state; each takes exactly one input word (R19). -/
def Obligations.NoStepStops : Prop :=
  ∀ s : State, ∃ t, step s = .next t ∧ t.tick = s.tick + 1 ∧ ∀ k, t.inputAt k = s.inputAt (k + 1)

/-- R99: RESET from any state, for any inputs, and held for any number of ticks. -/
def Obligations.ResetTakesTheResetValues : Prop :=
  (∀ start st (s : State), ∃ t, exec (.reset start st) s = .next t ∧ RegistersReset t ∧ SameInputs s t) ∧
  (∀ (s : State) (k : Nat), (∀ j < k + 1, (s.inputAt j).rst = true) →
    ∀ m, 1 ≤ m → m ≤ k + 1 → After m s fun t => RegistersReset t ∧ t.busy = false ∧ t.status.code = 0 ∧
      t.validOut = false ∧ t.lineOe = false ∧ t.outputs = State.reset.outputs)

/-- R27: the reset state's registers and its outputs. -/
def Obligations.ResetStateIsTheTable : Prop :=
  RegistersReset State.reset ∧
  ∀ s : State, RegistersReset s →
    s.outputs = { lineOe := false, lineOut := .low, busy := false, status := 0, humInt := 0, humFrac := 0,
                  tempInt := 0, tempFrac := 0, chksum := 0, humX10 := 0, tempX10 := 0, validOut := false }

/-! ## The caller's operations -/

/-- R53: WAIT writes no register, and the block may wait for any number of ticks. -/
def Obligations.WaitHolds : Prop :=
  (∀ st (s : State), ∃ t, exec (.wait st) s = .next t ∧ SameRegisters s t ∧ SameInputs s t) ∧
  (∀ (s : State) (k : Nat), s.st.isWaiting = true →
    (∀ j < k, (s.inputAt j).rst = false ∧ (s.inputAt j).start = false) →
    After k s fun t => SameRegisters s t ∧ t.outputs = s.outputs ∧ t.busy = false)

/-- R54: START begins a read; it is accepted from each waiting state alike, and not performed at a tick with `rst = 1`. -/
def Obligations.StartBeginsARead : Prop :=
  (∀ st (s : State), ∃ t, exec (.start st) s = .next t ∧ ReadBegun s t ∧ SameInputs s t) ∧
  (∀ s : State, ReadBegins s → After 1 s (ReadBegun s)) ∧
  (∀ s : State, s.st.isWaiting = true → (s.inputAt 0).rst = true → (s.inputAt 0).start = true →
    After 1 s RegistersReset)

/-- R55: in a busy state the request leaves no trace. -/
def Obligations.StartWhileBusyIsIgnored : Prop :=
  ∀ (s : State) (i : InputWord) (rest : List InputWord), s.st.isBusy = true → i.rst = false →
    step { s with inputs := { i with start := true } :: rest } =
      step { s with inputs := { i with start := false } :: rest }

/-- R64: outside the four phases the line's level has no effect. -/
def Obligations.LineIsReadOnlyInThePhases : Prop :=
  ∀ (s : State) (i : InputWord) (rest : List InputWord),
    s.st ≠ .awaitAck1 → s.st ≠ .awaitAck2 → s.st ≠ .bitLow → s.st ≠ .bitHigh →
    step { s with inputs := { i with lineIn := .low } :: rest } =
      step { s with inputs := { i with lineIn := .high } :: rest }

/-- R36, R91 and "Repeated-call isolation": what follows a START does not depend on which waiting state it came from, nor
on the `cnt`, `n` and `frame` an earlier read left. -/
def Obligations.StartForgetsTheReadBefore : Prop :=
  ∀ s s' : State, ReadBegins s → s'.st.isWaiting = true → SameStore s s' → SameInputs s s' → step s' = step s

/-- R103: `start` still 1 on the first tick of a terminal state. The next read starts on that tick, so the terminal state `t`
lasts one tick, and the new read keeps its store. -/
def Obligations.StartHeldBeginsTheNextRead : Prop :=
  ∀ s t : State, s.st.isBusy = true → step s = .next t → t.st.isWaiting = true → NoReset s 2 →
    (s.inputAt 1).start = true → After 2 s (ReadBegun t)

/-! ## Outputs -/

/-- R20: the line outputs. -/
def Obligations.LineOutputs : Prop :=
  ∀ s : State,
    (s.st = .reqLow → s.lineOe = true ∧ s.lineOut = .low) ∧
    (s.st = .reqHigh → s.lineOe = true ∧ s.lineOut = .high) ∧
    (s.st ≠ .reqLow → s.st ≠ .reqHigh → s.lineOe = false ∧ s.lineOut = .low)

/-- R21, R22, R45, R51: `busy` and `status` as functions of `st`. -/
def Obligations.BusyAndStatus : Prop :=
  ∀ s : State,
    (s.busy = true ↔ s.st.isBusy = true) ∧
    (s.st = .idle → s.status.code = 0) ∧ (s.st.isBusy = true → s.status.code = 1) ∧
    (s.st = .done → s.status.code = 2) ∧ (s.st = .failTimeout → s.status.code = 3) ∧
    (s.st = .failChecksum → s.status.code = 4) ∧ (∀ k, s.st = .reserved k → s.status.code = 0) ∧
    s.status.code.toNat ≤ 4

/-- R23, R24, R25: the reading outputs; the tenths are exact, from 0 to 2805. -/
def Obligations.ReadingOutputs : Prop :=
  ∀ s : State,
    s.outputs.humInt = s.storeHi ∧ s.outputs.humFrac = s.storeHf ∧ s.outputs.tempInt = s.storeTi ∧
    s.outputs.tempFrac = s.storeTf ∧ s.outputs.chksum = s.storeCk ∧ s.outputs.validOut = s.valid ∧
    s.outputs.humX10.toNat = s.storeHi.toNat * 10 + s.storeHf.toNat ∧
    s.outputs.tempX10.toNat = s.storeTi.toNat * 10 + s.storeTf.toNat ∧
    s.outputs.humX10.toNat ≤ 2805 ∧ s.outputs.tempX10.toNat ≤ 2805

/-- R82, R83: the readings are exact rationals from 0.0 to 280.5, and ten times each is its tenths output. -/
def Obligations.ReadingsAreExactTenths : Prop :=
  ∀ s : State,
    s.humidity = s.storeHi.toNat + s.storeHf.toNat / 10 ∧ s.humidity * 10 = s.humX10.toNat ∧
    0 ≤ s.humidity ∧ s.humidity ≤ 2805 / 10 ∧
    s.temperature = s.storeTi.toNat + s.storeTf.toNat / 10 ∧ s.temperature * 10 = s.tempX10.toNat ∧
    0 ≤ s.temperature ∧ s.temperature ≤ 2805 / 10

/-- R35: `cnt`, `n` and `frame` show at no output. -/
def Obligations.OutputsHideTheReadInProgress : Prop :=
  ∀ s t : State, t.st = s.st → SameStore s t → t.outputs = s.outputs

/-! ## The start request -/

/-- R61: REQ_LOW, one tick of it and its whole window. -/
def Obligations.ReqLowWindow : Prop :=
  (∀ start, decode (controlWord false start .reqLow) = .reqLow start) ∧
  (∀ start (s : State), ∃ t, exec (.reqLow start) s = .next t ∧
    (s.cnt.toNat = 19999 → t.st = .reqHigh ∧ t.cnt = 0) ∧
    (s.cnt.toNat ≠ 19999 → t.st = s.st ∧ t.cnt = s.cnt + 1) ∧
    t.n = s.n ∧ t.frame = s.frame ∧ SameStore s t ∧ SameInputs s t) ∧
  (∀ s : State, s.st = .reqLow → s.lineOe = true ∧ s.lineOut = .low ∧ s.busy = true) ∧
  (∀ s : State, s.st = .reqLow → s.cnt = 0 → NoReset s 20000 →
    (∀ k < 20000, After k s fun t => t.st = .reqLow ∧ t.cnt.toNat = k) ∧
    After 20000 s fun t => t.st = .reqHigh ∧ t.cnt = 0)

/-- R62: REQ_HIGH, one tick of it, its whole window, and the release. -/
def Obligations.ReqHighWindow : Prop :=
  (∀ start, decode (controlWord false start .reqHigh) = .reqHigh start) ∧
  (∀ start (s : State), ∃ t, exec (.reqHigh start) s = .next t ∧
    (s.cnt.toNat = 29 → t.st = .awaitAck1 ∧ t.cnt = 0) ∧
    (s.cnt.toNat ≠ 29 → t.st = s.st ∧ t.cnt = s.cnt + 1) ∧
    t.n = s.n ∧ t.frame = s.frame ∧ SameStore s t ∧ SameInputs s t) ∧
  (∀ s : State, s.st = .reqHigh → s.lineOe = true ∧ s.lineOut = .high ∧ s.busy = true) ∧
  (∀ s : State, s.st = .reqHigh → s.cnt = 0 → NoReset s 30 →
    (∀ k < 30, After k s fun t => t.st = .reqHigh ∧ t.cnt.toNat = k) ∧
    After 30 s fun t => t.st = .awaitAck1 ∧ t.cnt = 0 ∧ t.lineOe = false)

/-- R111: the ticks of the start request, counted from the START at tick 0. -/
def Obligations.StartRequestTiming : Prop :=
  ∀ s : State, ReadBegins s → NoReset s 20031 →
    (∀ k, 1 ≤ k → k ≤ 20000 → After k s fun t => t.st = .reqLow ∧ t.lineOe = true ∧ t.lineOut = .low) ∧
    (∀ k, 20001 ≤ k → k ≤ 20030 → After k s fun t => t.st = .reqHigh ∧ t.lineOe = true ∧ t.lineOut = .high) ∧
    After 20031 s fun t => t.st = .awaitAck1 ∧ t.cnt = 0 ∧ t.lineOe = false

/-- R63: each part of the start request is entered only from the one before it, and the line is driven only there. -/
def Obligations.RequestIsEnteredInOrder : Prop :=
  (∀ s t : State, step s = .next t →
    (t.st = .reqLow → s.st = .reqLow ∨ ReadBegins s) ∧
    (t.st = .reqHigh → s.st = .reqHigh ∨ (s.st = .reqLow ∧ s.cnt.toNat = 19999)) ∧
    (t.st = .awaitAck1 → s.st = .awaitAck1 ∨ (s.st = .reqHigh ∧ s.cnt.toNat = 29))) ∧
  (∀ s : State, s.lineOe = true ↔ s.st = .reqLow ∨ s.st = .reqHigh)

/-! ## The phases -/

/-- R68: ACK1. -/
def Obligations.Ack1Measures : Prop :=
  (∀ start, decode (controlWord false start .awaitAck1) = .ack1 start) ∧
  (∀ start, PhaseTick (.ack1 start) .low 83 (MovesTo .awaitAck2)) ∧
  (∀ s : State, s.st = .awaitAck1 → s.busy = true ∧ s.lineOe = false) ∧
  (∀ s : State, s.st = .awaitAck1 → s.cnt = 0 → NoReset s 84 → LineHolds s 0 84 .low →
    After 83 s (fun t => t.st = .awaitAck1 ∧ t.cnt.toNat = 83) ∧ After 84 s fun t => t.st = .failTimeout) ∧
  (∀ s : State, s.st = .awaitAck1 → s.cnt = 0 → NoReset s 1 → LineHolds s 0 1 .high →
    After 1 s fun t => t.st = .awaitAck2 ∧ t.cnt = 1)

/-- R69: ACK2. -/
def Obligations.Ack2Measures : Prop :=
  (∀ start, decode (controlWord false start .awaitAck2) = .ack2 start) ∧
  (∀ start, PhaseTick (.ack2 start) .high 87 (MovesTo .bitLow)) ∧
  (∀ s : State, s.st = .awaitAck2 → s.cnt = 1 → NoReset s 87 → LineHolds s 0 87 .high →
    After 86 s (fun t => t.st = .awaitAck2 ∧ t.cnt.toNat = 87) ∧ After 87 s fun t => t.st = .failTimeout)

/-- R70: BIT_LOW. -/
def Obligations.BitLowMeasures : Prop :=
  (∀ start, decode (controlWord false start .bitLow) = .bitLow start) ∧
  (∀ start, PhaseTick (.bitLow start) .low 50 (MovesTo .bitHigh)) ∧
  (∀ s : State, s.st = .bitLow → s.cnt = 1 → NoReset s 50 → LineHolds s 0 49 .low →
    After 49 s (fun t => t.st = .bitLow ∧ t.cnt.toNat = 50) ∧
    (LineHolds s 49 1 .low → After 50 s fun t => t.st = .failTimeout) ∧
    (LineHolds s 49 1 .high → After 50 s fun t => t.st = .bitHigh ∧ t.cnt = 1))

/-- R71, R75, R78: BIT_HIGH and the classify-and-place step that ends it. -/
def Obligations.BitHighMeasuresAndPlaces : Prop :=
  (∀ start, decode (controlWord false start .bitHigh) = .bitHigh start) ∧
  (∀ start, PhaseTick (.bitHigh start) .high 70 BitPlaced) ∧
  (∀ s : State, s.st = .bitHigh → s.cnt = 1 → NoReset s 70 → LineHolds s 0 69 .high →
    After 69 s (fun t => t.st = .bitHigh ∧ t.cnt.toNat = 70) ∧
    (LineHolds s 69 1 .high → After 70 s fun t => t.st = .failTimeout ∧ t.frame = s.frame ∧ t.n = s.n) ∧
    (LineHolds s 69 1 .low → After 70 s fun t => s.n.toNat < 40 → streamBit t.frame s.n.toNat = true))

/-- R66, R67, R108, R113: for each phase with its level, bound and first count, a run of `d` samples within the bound ends
the phase with the result `d`; a longer one raises Timeout on sample `B + 1`. -/
def Obligations.PhaseRunLengths : Prop :=
  ∀ p ∈ [(St.awaitAck1, Level.low, 83, 0), (.awaitAck2, .high, 87, 1), (.bitLow, .low, 50, 1), (.bitHigh, .high, 70, 1)],
    ∀ s : State, s.st = p.1 → s.cnt.toNat = p.2.2.2 →
      (∀ d, p.2.2.2 ≤ d → d ≤ p.2.2.1 → NoReset s (d - p.2.2.2 + 1) → LineHolds s 0 (d - p.2.2.2) p.2.1 →
        (s.inputAt (d - p.2.2.2)).lineIn ≠ p.2.1 →
        After (d - p.2.2.2) s (fun t => t.st = p.1 ∧ t.cnt.toNat = d) ∧
        After (d - p.2.2.2 + 1) s fun t => t.st ≠ p.1 ∧ t.st ≠ .failTimeout) ∧
      (NoReset s (p.2.2.1 + 1 - p.2.2.2) → LineHolds s 0 (p.2.2.1 + 1 - p.2.2.2) p.2.1 →
        (∀ k < p.2.2.1 + 1 - p.2.2.2, After k s fun t => t.st = p.1) ∧
        After (p.2.2.1 + 1 - p.2.2.2) s fun t => t.st = .failTimeout ∧ t.cnt.toNat = p.2.2.1)

/-- R74: the classifier, and the range of the results it is given. -/
def Obligations.ClassifyAtTheThreshold : Prop :=
  (∀ r : Count, classify r = true ↔ 40 < r.toNat) ∧ classify 40 = false ∧ classify 41 = true ∧
  (∀ s : State, RegisterBounds s → s.st = .bitHigh → 1 ≤ s.cnt.toNat ∧ s.cnt.toNat ≤ 70)

/-- R77: ASSEMBLE changes no data. -/
def Obligations.AssembleMovesOn : Prop :=
  (∀ start, decode (controlWord false start .assembling) = .assemble start) ∧
  ∀ start (s : State), ∃ t, exec (.assemble start) s = .next t ∧ t.st = .validating ∧ t.cnt = s.cnt ∧
    t.n = s.n ∧ t.frame = s.frame ∧ SameStore s t ∧ SameInputs s t

/-! ## The checksum and the Reading Store -/

/-- R79, R80, R81, R84: VALIDATE, its commit and its mismatch, for every frame whatever its bytes. -/
def Obligations.ValidateCommitsOrFails : Prop :=
  (∀ start, decode (controlWord false start .validating) = .validate start) ∧
  ∀ start (s : State), ∃ t, exec (.validate start) s = .next t ∧
    (ChecksumMatches s.frame → t.st = .done ∧ StoreHolds t s.frame ∧ t.status.code = 2) ∧
    (¬ ChecksumMatches s.frame → t.st = .failChecksum ∧ SameStore s t ∧ t.status.code = 4) ∧
    t.frame = s.frame ∧ t.n = s.n ∧ t.cnt = s.cnt ∧ SameInputs s t

/-- R87: for any four data bytes exactly one checksum byte passes. -/
def Obligations.OneChecksumBytePasses : Prop :=
  ∀ b0 b1 b2 b3 : Byte, ∃ c : Byte, ∀ (b4 : Byte) (s : State) (start : Bool),
    s.frame = #v[b0, b1, b2, b3, b4] →
    ∃ t, exec (.validate start) s = .next t ∧ (t.st = .done ↔ b4 = c) ∧ (t.st = .failChecksum ↔ b4 ≠ c)

/-- R33, R34: the Reading Store has two writers, a matching VALIDATE and RESET, and each writes it whole. -/
def Obligations.StoreHasTwoWriters : Prop :=
  ∀ s t : State, step s = .next t →
    ((s.inputAt 0).rst = true → StoreCleared t) ∧
    ((s.inputAt 0).rst = false → s.st = .validating → ChecksumMatches s.frame →
      StoreHolds t s.frame ∧ t.st = .done) ∧
    ((s.inputAt 0).rst = false → ¬ (s.st = .validating ∧ ChecksumMatches s.frame) → SameStore s t)

/-- R36: the frame buffer has three writers. -/
def Obligations.FrameHasThreeWriters : Prop :=
  ∀ s t : State, step s = .next t →
    ((s.inputAt 0).rst = true → t.frame = #v[0x00, 0x00, 0x00, 0x00, 0x00]) ∧
    (ReadBegins s → t.frame = #v[0x00, 0x00, 0x00, 0x00, 0x00]) ∧
    ((s.inputAt 0).rst = false → s.st = .bitHigh → (s.inputAt 0).lineIn = .low →
      (s.cnt.toNat ≤ 40 → t.frame = s.frame) ∧
      ∀ i < 40, streamBit t.frame i =
        (streamBit s.frame i || (decide (i = s.n.toNat) && decide (40 < s.cnt.toNat)))) ∧
    ((s.inputAt 0).rst = false → ¬ ReadBegins s → ¬ (s.st = .bitHigh ∧ (s.inputAt 0).lineIn = .low) →
      t.frame = s.frame)

/-- R38: while no read is validated and no reset comes, the reading outputs stand, over any number of ticks. -/
def Obligations.LastReadingStands : Prop :=
  ∀ (k : Nat) (s t : State), runTicks k s = .next t → NoReset s k →
    (∀ j < k, ∀ u, runTicks j s = .next u → u.st ≠ .validating) → SameStore s t

/-! ## Errors -/

/-- R85, R86, R87, R89: what a step into a failure state is raised by, and that it writes nothing but `st`. -/
def Obligations.FailureEntryIsPrecise : Prop :=
  ∀ s t : State, step s = .next t → t.st = .failTimeout ∨ t.st = .failChecksum → s.st ≠ t.st →
    (s.inputAt 0).rst = false ∧
    t = { s with st := t.st, inputs := s.inputs.tail, tick := s.tick + 1 } ∧
    t.busy = false ∧ t.lineOe = false ∧
    (t.st = .failTimeout → t.status.code = 3 ∧ ∃ L B,
      (s.st, L, B) ∈ [(St.awaitAck1, Level.low, 83), (.awaitAck2, .high, 87), (.bitLow, .low, 50), (.bitHigh, .high, 70)] ∧
      (s.inputAt 0).lineIn = L ∧ s.cnt.toNat = B) ∧
    (t.st = .failChecksum → t.status.code = 4 ∧ s.st = .validating ∧ ¬ ChecksumMatches s.frame)

/-- R90, R91: in a failure state only WAIT, START and RESET apply, and a START behaves as from IDLE or DONE. -/
def Obligations.NothingRunsAfterAFailure : Prop :=
  ∀ s t : State, s.st = .failTimeout ∨ s.st = .failChecksum → step s = .next t →
    ((s.inputAt 0).rst = true → RegistersReset t) ∧
    ((s.inputAt 0).rst = false → (s.inputAt 0).start = true → ReadBegun s t) ∧
    ((s.inputAt 0).rst = false → (s.inputAt 0).start = false → SameRegisters s t)

/-- R50: RSV, the outputs of a reserved code, and that no step enters one. -/
def Obligations.ReservedCodesRecover : Prop :=
  (∀ start st (s : State), ∃ t, exec (.rsv start st) s = .next t ∧ t.st = .idle ∧ t.cnt = s.cnt ∧ t.n = s.n ∧
    t.frame = s.frame ∧ SameStore s t ∧ SameInputs s t) ∧
  (∀ (s : State) k, s.st = .reserved k → NoReset s 1 → After 1 s fun t => t.st = .idle) ∧
  (∀ (s : State) k, s.st = .reserved k → s.busy = false ∧ s.status.code = 0 ∧ s.lineOe = false) ∧
  (∀ s t : State, step s = .next t → t.st.isReserved = false)

/-! ## Invariants -/

/-- R28: the register bounds are kept by every step. -/
def Obligations.RegisterBoundsKept : Prop :=
  ∀ s t : State, RegisterBounds s → step s = .next t → RegisterBounds t

/-- R16, R45, R58, R80: what the Reading Store holds is kept by every step. -/
def Obligations.StoredReadingKept : Prop :=
  ∀ s t : State, StoredReading s → step s = .next t → StoredReading t

/-- R17, R36, R76: how far a read has come, in `n` and the frame, is kept by every step. -/
def Obligations.ReadProgressKept : Prop :=
  ∀ s t : State, ReadProgress s → step s = .next t → ReadProgress t

/-- R27: the reset state meets the three invariants. -/
def Obligations.ResetIsSafe : Prop := Safe State.reset

/-! ## Whole reads -/

/-- R112, R76, R79, R80: a well-formed response is decoded. The START is at tick 0, so the first sample after release is at
tick 20031; every phase ends at the tick R112 gives, bit `i` is 1 exactly when `h i > 40`, and the terminal state first
shows at tick `20034 + D`. -/
def Obligations.WellFormedResponseIsDecoded : Prop :=
  ∀ (s : State) (a0 a1 : Nat) (l h : Nat → Nat),
    ReadBegins s → AcceptedLengths a0 a1 l h → LineAnswers s 20031 a0 a1 l h →
    NoReset s (20034 + slotStart a0 a1 l h 40) →
      After (20031 + a0) s (fun t => t.st = .awaitAck1 ∧ t.cnt.toNat = a0) ∧
      After (20031 + a0 + 1) s (fun t => t.st = .awaitAck2) ∧
      After (20031 + a0 + a1) s (fun t => t.st = .awaitAck2 ∧ t.cnt.toNat = a1) ∧
      After (20031 + a0 + a1 + 1) s (fun t => t.st = .bitLow ∧ t.n = 0) ∧
      (∀ i < 40,
        After (20031 + slotStart a0 a1 l h i + l i) s
          (fun t => t.st = .bitLow ∧ t.n.toNat = i ∧ t.cnt.toNat = l i) ∧
        After (20031 + slotStart a0 a1 l h i + l i + 1) s (fun t => t.st = .bitHigh ∧ t.n.toNat = i) ∧
        After (20031 + slotStart a0 a1 l h i + l i + h i) s
          (fun t => t.st = .bitHigh ∧ t.n.toNat = i ∧ t.cnt.toNat = h i)) ∧
      After (20032 + slotStart a0 a1 l h 40) s (fun t => t.st = .assembling ∧ SameStore s t ∧
        ∀ i < 40, streamBit t.frame i = decide (40 < h i)) ∧
      After (20033 + slotStart a0 a1 l h 40) s (fun t => t.st = .validating ∧ SameStore s t) ∧
      After (20034 + slotStart a0 a1 l h 40) s (fun t =>
        (∀ i < 40, streamBit t.frame i = decide (40 < h i)) ∧
        (ChecksumMatches t.frame → t.st = .done ∧ StoreHolds t t.frame) ∧
        (¬ ChecksumMatches t.frame → t.st = .failChecksum ∧ SameStore s t))

/-- R59, R114: a read that is not reset is busy until it ends, ends within 25004 ticks whatever the line does, by a timeout
within 25002; the longest read takes all of them. -/
def Obligations.EveryReadEnds : Prop :=
  (∀ s : State, ReadBegins s → NoReset s 25004 →
    ∃ k, 2 ≤ k ∧ k ≤ 25004 ∧ (∀ j, 1 ≤ j → j < k → After j s fun t => t.busy = true ∧ t.status.code = 1) ∧
      After k s fun t => t.busy = false ∧
        ((t.st = .done ∧ t.status.code = 2) ∨ (t.st = .failTimeout ∧ t.status.code = 3 ∧ k ≤ 25002) ∨
          (t.st = .failChecksum ∧ t.status.code = 4))) ∧
  (∀ s : State, ReadBegins s → NoReset s 25004 →
    LineAnswers s 20031 83 87 (fun _ => 50) (fun _ => 70) →
    (∀ j, 1 ≤ j → j ≤ 25003 → After j s fun t => t.busy = true) ∧
    After 25004 s fun t => t.busy = false)

/-- R113: with the line high from release on, FAIL_TIMEOUT first shows at tick 20119; with the line stuck low, at 20115. -/
def Obligations.SilentLineTimesOut : Prop :=
  ∀ s : State, ReadBegins s →
    (NoReset s 20119 → LineHolds s 20031 88 .high →
      After 20118 s (fun t => t.st = .awaitAck2) ∧ After 20119 s fun t => t.st = .failTimeout) ∧
    (NoReset s 20115 → LineHolds s 20031 84 .low →
      After 20114 s (fun t => t.st = .awaitAck1) ∧ After 20115 s fun t => t.st = .failTimeout)

/-- R106: from the first sample after release, a high of `g` ticks before the sensor's response makes the read time out:
in BIT_HIGH(0) with the handshake of 50 and 80, in BIT_LOW(0) with an acknowledgement low of more than 50, and in ACK2
when the high is longer than 87. -/
def Obligations.LateResponseTimesOut : Prop :=
  ∀ (s : State) (g : Nat), s.st = .awaitAck1 → s.cnt = 0 → s.n = 0 → 1 ≤ g →
    (g ≤ 87 → NoReset s (g + 121) → LineHolds s 0 g .high → LineHolds s g 50 .low →
      LineHolds s (g + 50) 71 .high →
      After (g + 120) s (fun t => t.st = .bitHigh ∧ t.n = 0) ∧ After (g + 121) s fun t => t.st = .failTimeout) ∧
    (g ≤ 87 → NoReset s (g + 51) → LineHolds s 0 g .high → LineHolds s g 51 .low →
      After (g + 50) s (fun t => t.st = .bitLow ∧ t.n = 0) ∧ After (g + 51) s fun t => t.st = .failTimeout) ∧
    (88 ≤ g → NoReset s 88 → LineHolds s 0 g .high → After 88 s fun t => t.st = .failTimeout)
end

