-- ==== Sys2Proof/Laws/Encoding.lean ====
section
/-! SUPPORT. Small lemmas of the encodings: state codes, line bits, and which operation the control word of a tick selects. -/

namespace Sys2Proof

@[simp] theorem Level.ofBit_bit (L : Level) : Level.ofBit L.bit = L := by cases L <;> rfl

@[simp] theorem Level.bit_ofBit (b : Bool) : (Level.ofBit b).bit = b := by cases b <;> rfl

theorem Level.ne_low {L : Level} : L ≠ .low ↔ L = .high := by cases L <;> simp

theorem Level.ne_high {L : Level} : L ≠ .high ↔ L = .low := by cases L <;> simp

/-- The fields of a control word built from a state code (R46). -/
theorem controlWord_fields (rst start : Bool) (st : St) :
    (controlWord rst start st).getLsbD 5 = rst ∧ (controlWord rst start st).getLsbD 4 = start ∧
      St.ofCode ((controlWord rst start st).extractLsb' 0 4) = st := by
  cases st with
  | reserved k => revert k; cases rst <;> cases start <;> decide
  | _ => cases rst <;> cases start <;> decide

/-- A sampled reset selects RESET (R47). -/
theorem decode_of_rst (start : Bool) (st : St) : decode (controlWord true start st) = .reset start st := by
  obtain ⟨h5, h4, hs⟩ := controlWord_fields true start st
  simp only [decode, h5, h4, hs, if_true]

/-- Without a reset the state selects the operation, and `start` decides in a waiting state (R47). -/
theorem decode_of_no_rst (start : Bool) (st : St) :
    decode (controlWord false start st) =
      match st with
      | .idle | .done | .failTimeout | .failChecksum => if start then .start st else .wait st
      | .reqLow     => .reqLow start
      | .reqHigh    => .reqHigh start
      | .awaitAck1  => .ack1 start
      | .awaitAck2  => .ack2 start
      | .bitLow     => .bitLow start
      | .bitHigh    => .bitHigh start
      | .assembling => .assemble start
      | .validating => .validate start
      | .reserved _ => .rsv start st := by
  obtain ⟨h5, h4, hs⟩ := controlWord_fields false start st
  simp only [decode, h5, h4, hs]
  cases st <;> simp

end Sys2Proof
end

