-- ==== Sys2Proof/Laws/State.lean ====
section
/-! SUPPORT. One lemma per field per named update of the state, so that no later proof unfolds a record update. -/

namespace Sys2Proof.Machine

variable (s : State)

/-! ## `countUp` -/

@[simp] theorem State.countUp_st : (s.countUp).st = s.st := rfl
@[simp] theorem State.countUp_cnt : (s.countUp).cnt = s.cnt + 1 := rfl
@[simp] theorem State.countUp_n : (s.countUp).n = s.n := rfl
@[simp] theorem State.countUp_frame : (s.countUp).frame = s.frame := rfl
@[simp] theorem State.countUp_storeHi : (s.countUp).storeHi = s.storeHi := rfl
@[simp] theorem State.countUp_storeHf : (s.countUp).storeHf = s.storeHf := rfl
@[simp] theorem State.countUp_storeTi : (s.countUp).storeTi = s.storeTi := rfl
@[simp] theorem State.countUp_storeTf : (s.countUp).storeTf = s.storeTf := rfl
@[simp] theorem State.countUp_storeCk : (s.countUp).storeCk = s.storeCk := rfl
@[simp] theorem State.countUp_valid : (s.countUp).valid = s.valid := rfl
@[simp] theorem State.countUp_inputs : (s.countUp).inputs = s.inputs := rfl
@[simp] theorem State.countUp_tick : (s.countUp).tick = s.tick := rfl

/-! ## `enter` -/

@[simp] theorem State.enter_st (S : St) (c : Count) : (s.enter S c).st = S := rfl
@[simp] theorem State.enter_cnt (S : St) (c : Count) : (s.enter S c).cnt = c := rfl
@[simp] theorem State.enter_n (S : St) (c : Count) : (s.enter S c).n = s.n := rfl
@[simp] theorem State.enter_frame (S : St) (c : Count) : (s.enter S c).frame = s.frame := rfl
@[simp] theorem State.enter_storeHi (S : St) (c : Count) : (s.enter S c).storeHi = s.storeHi := rfl
@[simp] theorem State.enter_storeHf (S : St) (c : Count) : (s.enter S c).storeHf = s.storeHf := rfl
@[simp] theorem State.enter_storeTi (S : St) (c : Count) : (s.enter S c).storeTi = s.storeTi := rfl
@[simp] theorem State.enter_storeTf (S : St) (c : Count) : (s.enter S c).storeTf = s.storeTf := rfl
@[simp] theorem State.enter_storeCk (S : St) (c : Count) : (s.enter S c).storeCk = s.storeCk := rfl
@[simp] theorem State.enter_valid (S : St) (c : Count) : (s.enter S c).valid = s.valid := rfl
@[simp] theorem State.enter_inputs (S : St) (c : Count) : (s.enter S c).inputs = s.inputs := rfl
@[simp] theorem State.enter_tick (S : St) (c : Count) : (s.enter S c).tick = s.tick := rfl

/-! ## `placeOne` -/

@[simp] theorem State.placeOne_st : (s.placeOne).st = s.st := rfl
@[simp] theorem State.placeOne_cnt : (s.placeOne).cnt = s.cnt := rfl
@[simp] theorem State.placeOne_n : (s.placeOne).n = s.n := rfl
@[simp] theorem State.placeOne_frame : (s.placeOne).frame = setFrameBit s.frame (byteIndex s.n) (targetBit s.n) := rfl
@[simp] theorem State.placeOne_storeHi : (s.placeOne).storeHi = s.storeHi := rfl
@[simp] theorem State.placeOne_storeHf : (s.placeOne).storeHf = s.storeHf := rfl
@[simp] theorem State.placeOne_storeTi : (s.placeOne).storeTi = s.storeTi := rfl
@[simp] theorem State.placeOne_storeTf : (s.placeOne).storeTf = s.storeTf := rfl
@[simp] theorem State.placeOne_storeCk : (s.placeOne).storeCk = s.storeCk := rfl
@[simp] theorem State.placeOne_valid : (s.placeOne).valid = s.valid := rfl
@[simp] theorem State.placeOne_inputs : (s.placeOne).inputs = s.inputs := rfl
@[simp] theorem State.placeOne_tick : (s.placeOne).tick = s.tick := rfl

/-! ## `raise` -/

@[simp] theorem State.raise_st (k : ErrorKind) : (s.raise k).st = k.failState := rfl
@[simp] theorem State.raise_cnt (k : ErrorKind) : (s.raise k).cnt = s.cnt := rfl
@[simp] theorem State.raise_n (k : ErrorKind) : (s.raise k).n = s.n := rfl
@[simp] theorem State.raise_frame (k : ErrorKind) : (s.raise k).frame = s.frame := rfl
@[simp] theorem State.raise_storeHi (k : ErrorKind) : (s.raise k).storeHi = s.storeHi := rfl
@[simp] theorem State.raise_storeHf (k : ErrorKind) : (s.raise k).storeHf = s.storeHf := rfl
@[simp] theorem State.raise_storeTi (k : ErrorKind) : (s.raise k).storeTi = s.storeTi := rfl
@[simp] theorem State.raise_storeTf (k : ErrorKind) : (s.raise k).storeTf = s.storeTf := rfl
@[simp] theorem State.raise_storeCk (k : ErrorKind) : (s.raise k).storeCk = s.storeCk := rfl
@[simp] theorem State.raise_valid (k : ErrorKind) : (s.raise k).valid = s.valid := rfl
@[simp] theorem State.raise_inputs (k : ErrorKind) : (s.raise k).inputs = s.inputs := rfl
@[simp] theorem State.raise_tick (k : ErrorKind) : (s.raise k).tick = s.tick := rfl

/-! ## `beginRead` -/

@[simp] theorem State.beginRead_st : (s.beginRead).st = .reqLow := rfl
@[simp] theorem State.beginRead_cnt : (s.beginRead).cnt = 0 := rfl
@[simp] theorem State.beginRead_n : (s.beginRead).n = 0 := rfl
@[simp] theorem State.beginRead_frame : (s.beginRead).frame = zeroFrame := rfl
@[simp] theorem State.beginRead_storeHi : (s.beginRead).storeHi = s.storeHi := rfl
@[simp] theorem State.beginRead_storeHf : (s.beginRead).storeHf = s.storeHf := rfl
@[simp] theorem State.beginRead_storeTi : (s.beginRead).storeTi = s.storeTi := rfl
@[simp] theorem State.beginRead_storeTf : (s.beginRead).storeTf = s.storeTf := rfl
@[simp] theorem State.beginRead_storeCk : (s.beginRead).storeCk = s.storeCk := rfl
@[simp] theorem State.beginRead_valid : (s.beginRead).valid = s.valid := rfl
@[simp] theorem State.beginRead_inputs : (s.beginRead).inputs = s.inputs := rfl
@[simp] theorem State.beginRead_tick : (s.beginRead).tick = s.tick := rfl

/-! ## `commit` -/

@[simp] theorem State.commit_st : (s.commit).st = .done := rfl
@[simp] theorem State.commit_cnt : (s.commit).cnt = s.cnt := rfl
@[simp] theorem State.commit_n : (s.commit).n = s.n := rfl
@[simp] theorem State.commit_frame : (s.commit).frame = s.frame := rfl
@[simp] theorem State.commit_storeHi : (s.commit).storeHi = s.frame[0] := rfl
@[simp] theorem State.commit_storeHf : (s.commit).storeHf = s.frame[1] := rfl
@[simp] theorem State.commit_storeTi : (s.commit).storeTi = s.frame[2] := rfl
@[simp] theorem State.commit_storeTf : (s.commit).storeTf = s.frame[3] := rfl
@[simp] theorem State.commit_storeCk : (s.commit).storeCk = s.frame[4] := rfl
@[simp] theorem State.commit_valid : (s.commit).valid = true := rfl
@[simp] theorem State.commit_inputs : (s.commit).inputs = s.inputs := rfl
@[simp] theorem State.commit_tick : (s.commit).tick = s.tick := rfl

/-! ## `resetRegisters` -/

@[simp] theorem State.resetRegisters_st : (s.resetRegisters).st = .idle := rfl
@[simp] theorem State.resetRegisters_cnt : (s.resetRegisters).cnt = 0 := rfl
@[simp] theorem State.resetRegisters_n : (s.resetRegisters).n = 0 := rfl
@[simp] theorem State.resetRegisters_frame : (s.resetRegisters).frame = zeroFrame := rfl
@[simp] theorem State.resetRegisters_storeHi : (s.resetRegisters).storeHi = 0 := rfl
@[simp] theorem State.resetRegisters_storeHf : (s.resetRegisters).storeHf = 0 := rfl
@[simp] theorem State.resetRegisters_storeTi : (s.resetRegisters).storeTi = 0 := rfl
@[simp] theorem State.resetRegisters_storeTf : (s.resetRegisters).storeTf = 0 := rfl
@[simp] theorem State.resetRegisters_storeCk : (s.resetRegisters).storeCk = 0 := rfl
@[simp] theorem State.resetRegisters_valid : (s.resetRegisters).valid = false := rfl
@[simp] theorem State.resetRegisters_inputs : (s.resetRegisters).inputs = s.inputs := rfl
@[simp] theorem State.resetRegisters_tick : (s.resetRegisters).tick = s.tick := rfl

/-! ## `consumeInput` -/

@[simp] theorem State.consumeInput_st : (s.consumeInput).st = s.st := rfl
@[simp] theorem State.consumeInput_cnt : (s.consumeInput).cnt = s.cnt := rfl
@[simp] theorem State.consumeInput_n : (s.consumeInput).n = s.n := rfl
@[simp] theorem State.consumeInput_frame : (s.consumeInput).frame = s.frame := rfl
@[simp] theorem State.consumeInput_storeHi : (s.consumeInput).storeHi = s.storeHi := rfl
@[simp] theorem State.consumeInput_storeHf : (s.consumeInput).storeHf = s.storeHf := rfl
@[simp] theorem State.consumeInput_storeTi : (s.consumeInput).storeTi = s.storeTi := rfl
@[simp] theorem State.consumeInput_storeTf : (s.consumeInput).storeTf = s.storeTf := rfl
@[simp] theorem State.consumeInput_storeCk : (s.consumeInput).storeCk = s.storeCk := rfl
@[simp] theorem State.consumeInput_valid : (s.consumeInput).valid = s.valid := rfl
@[simp] theorem State.consumeInput_inputs : (s.consumeInput).inputs = s.inputs.tail := rfl
@[simp] theorem State.consumeInput_tick : (s.consumeInput).tick = s.tick + 1 := rfl

end Sys2Proof.Machine
end

