-- ==== Sys2Proof/Laws/Ops.lean ====
section
/-! SUPPORT. One lemma per shared operation: what sampling, counting, measuring, placing a bit and checking a sum do. -/

namespace Sys2Proof.Machine

/-! ## Inputs -/

/-- After a tick the inputs are one further on. -/
@[simp] theorem State.inputAt_consumeInput (s : State) (k : Nat) :
    s.consumeInput.inputAt k = s.inputAt (k + 1) := by
  cases h : s.inputs with
  | nil => simp [State.inputAt, h, Nat.add_assoc, Nat.add_comm 1 k]
  | cons i rest => simp [State.inputAt, h, Nat.add_assoc, Nat.add_comm 1 k]

/-- The inputs depend on the queue and the tick index alone. -/
theorem State.inputAt_congr {s t : State} (h : SameInputs s t) (k : Nat) : t.inputAt k = s.inputAt k := by
  simp [State.inputAt, h.1, h.2]

theorem State.lineIn_eq (s : State) : s.lineIn = (s.inputAt 0).lineIn := rfl

theorem NoReset.mono {s : State} {k m : Nat} (h : NoReset s k) (hm : m ≤ k) : NoReset s m :=
  fun j hj => h j (Nat.lt_of_lt_of_le hj hm)

/-! ## Counting -/

/-- A window below its last tick counts up; on its last tick it moves on with `cnt = 0` (R61, R62). -/
theorem State.holdWindow_cases (s : State) (T : Nat) (S : St) :
    (s.cnt.toNat = T - 1 ∧ s.holdWindow T S = s.enter S 0) ∨
    (s.cnt.toNat ≠ T - 1 ∧ s.holdWindow T S = s.countUp) := by
  by_cases h : s.cnt.toNat = T - 1
  · exact .inl ⟨h, by simp [State.holdWindow, h]⟩
  · exact .inr ⟨h, by simp [State.holdWindow, h]⟩

/-- Below the register's last value, counting up adds one (R13). -/
theorem count_succ_toNat {c : Count} (h : c.toNat < 32767) : (c + 1).toNat = c.toNat + 1 := by
  simp [BitVec.toNat_add]; omega

/-! ## The measurement of a phase -/

/-- A tick of a phase raises Timeout, counts, or ends the phase (R65). -/
theorem State.measure_cases (s : State) (L : Level) (B : Nat) (endPhase : Count → State → State) :
    (s.lineIn = L ∧ s.cnt.toNat = B ∧ s.measure L B endPhase = s.raise .timeout) ∨
    (s.lineIn = L ∧ s.cnt.toNat ≠ B ∧ s.measure L B endPhase = s.countUp) ∨
    (s.lineIn ≠ L ∧ s.measure L B endPhase = endPhase s.cnt s) := by
  by_cases hL : s.lineIn = L
  · by_cases hB : s.cnt.toNat = B
    · exact .inl ⟨hL, hB, by simp [State.measure, hL, hB]⟩
    · exact .inr (.inl ⟨hL, hB, by simp [State.measure, hL, hB]⟩)
  · exact .inr (.inr ⟨hL, by simp [State.measure, hL]⟩)

/-! ## The frame -/

theorem byteIndex_eq (n : BitIndex) : byteIndex n = n.toNat / 8 := by
  simp [byteIndex, BitVec.extractLsb', Nat.shiftRight_eq_div_pow]; omega

theorem targetBit_eq (n : BitIndex) : targetBit n = 7 - n.toNat % 8 := by
  simp [targetBit, msbPosition, BitVec.extractLsb']

theorem bit_of_one_shift {a b : Nat} (ha : a < 8) : (1#8 <<< b).getLsbD a = decide (a = b) := by
  by_cases h : b < 8
  · interval_cases a <;> interval_cases b <;> decide
  · have : a ≠ b := by omega
    simp [this]; omega

/-- A placed 1 sets stream bit `n` and leaves the other bits of the frame as they were (R30, R75). -/
theorem State.placeOne_streamBit (s : State) {i : Nat} (hi : i < 40) :
    streamBit s.placeOne.frame i = (streamBit s.frame i || decide (i = s.n.toNat)) := by
  simp only [State.placeOne_frame, byteIndex_eq, targetBit_eq, setFrameBit, streamBit]
  have hk : i / 8 < 5 := by omega
  by_cases h : s.n.toNat / 8 < 5
  · simp only [h, dite_true]
    by_cases e : s.n.toNat / 8 = i / 8
    · have hb : (7 - i % 8 = 7 - s.n.toNat % 8) ↔ (i = s.n.toNat) := by omega
      simp [e, hk, bit_of_one_shift (show 7 - i % 8 < 8 by omega), hb]
    · have hn : i ≠ s.n.toNat := by intro h; omega
      simp [hk, e, hn]
  · have hn : i ≠ s.n.toNat := by omega
    simp [h, hn]

/-- The end of a BIT_HIGH phase places bit `n` when the count is greater than 40 (R74, R75). -/
theorem endBitHigh_streamBit (s : State) {i : Nat} (hi : i < 40) :
    streamBit (endBitHigh s.cnt s).frame i =
      (streamBit s.frame i || (decide (i = s.n.toNat) && decide (40 < s.cnt.toNat))) := by
  have hn (u : State) : u.nextSlot.frame = u.frame := by simp only [State.nextSlot]; split <;> rfl
  by_cases h : 40 < s.cnt.toNat
  · simp [endBitHigh, classify, thresh, h, hn, ← State.placeOne_streamBit s hi]
  · simp [endBitHigh, classify, thresh, h, hn]

/-- Only the frame's one bit, `n`, `cnt` and `st` can change at the end of a BIT_HIGH phase (R78). -/
theorem endBitHigh_frame (s : State) :
    SameStore s (endBitHigh s.cnt s) ∧ SameInputs s (endBitHigh s.cnt s) ∧
    (s.n.toNat = 39 → (endBitHigh s.cnt s).st = .assembling ∧ (endBitHigh s.cnt s).cnt = 0 ∧
      (endBitHigh s.cnt s).n = s.n) ∧
    (s.n.toNat ≠ 39 → (endBitHigh s.cnt s).st = .bitLow ∧ (endBitHigh s.cnt s).cnt = 1 ∧
      (endBitHigh s.cnt s).n = s.n + 1) := by
  by_cases h : classify s.cnt <;> by_cases hn : s.n.toNat = 39 <;>
    simp [endBitHigh, h, State.nextSlot, hn, nBits, SameStore, SameInputs]

/-- The 8-bit sum is the exact sum mod 256, so the machine's test is the one of R79. -/
theorem frameSum_eq_iff (f : Vector Byte 5) : frameSum f = f[4] ↔ ChecksumMatches f := by
  rw [← BitVec.toNat_inj]
  simp [frameSum, ChecksumMatches]

end Sys2Proof.Machine
end

