-- ==== Sys2Proof/Laws/Inputs.lean ====
section
/-! SUPPORT. How a queue of input words meets the hypotheses on the coming ticks: no reset, a level held, and the line trace of
a well-formed response (70_reset_and_hazards.md R112) for any lengths of its pulses. -/

namespace Sys2Proof.Machine

/-- `k` ordinary ticks with the line at level `L`. -/
def lineTicks (L : Level) (k : Nat) : List InputWord := List.replicate k { rst := false, start := false, lineIn := L }

/-- The first `i` bit slots. -/
def slotsTicks (l h : Nat → Nat) : Nat → List InputWord
  | 0     => []
  | i + 1 => slotsTicks l h i ++ (lineTicks .low (l i) ++ lineTicks .high (h i))

/-- The response of R112: handshake, 40 slots, and a low after them. -/
def responseTicks (a0 a1 : Nat) (l h : Nat → Nat) : List InputWord :=
  lineTicks .low a0 ++ (lineTicks .high a1 ++ (slotsTicks l h 40 ++ lineTicks .low 3))

@[simp] theorem length_lineTicks (L : Level) (k : Nat) : (lineTicks L k).length = k := by simp [lineTicks]

theorem length_slotsTicks (a0 a1 : Nat) (l h : Nat → Nat) (i : Nat) :
    a0 + a1 + (slotsTicks l h i).length = slotStart a0 a1 l h i := by
  induction i with
  | zero => simp [slotsTicks, slotStart]
  | succ i ih => simp [slotsTicks, slotStart]; omega

theorem rst_of_mem_slotsTicks {l h : Nat → Nat} {i : Nat} {w : InputWord} (hw : w ∈ slotsTicks l h i) :
    w.rst = false := by
  induction i with
  | zero => simp [slotsTicks] at hw
  | succ i ih =>
    simp only [slotsTicks, List.mem_append, lineTicks, List.mem_replicate] at hw
    rcases hw with hw | ⟨-, rfl⟩ | ⟨-, rfl⟩
    · exact ih hw
    · rfl
    · rfl

theorem rst_of_mem_responseTicks {a0 a1 : Nat} {l h : Nat → Nat} {w : InputWord}
    (hw : w ∈ responseTicks a0 a1 l h) : w.rst = false := by
  simp only [responseTicks, List.mem_append, lineTicks, List.mem_replicate] at hw
  rcases hw with ⟨-, rfl⟩ | ⟨-, rfl⟩ | hw | ⟨-, rfl⟩
  · rfl
  · rfl
  · exact rst_of_mem_slotsTicks hw
  · rfl

/-- Slot `i` stands in the first `m` slots right after the first `i`. -/
theorem slotsTicks_split (l h : Nat → Nat) {i m : Nat} (hi : i < m) :
    ∃ rest, slotsTicks l h m =
      slotsTicks l h i ++ (lineTicks .low (l i) ++ (lineTicks .high (h i) ++ rest)) := by
  induction m with
  | zero => omega
  | succ m ih =>
    by_cases e : i = m
    · subst e; exact ⟨[], by simp [slotsTicks]⟩
    · obtain ⟨rest, hr⟩ := ih (by omega)
      exact ⟨rest ++ (lineTicks .low (l m) ++ lineTicks .high (h m)), by simp [slotsTicks, hr]⟩

/-- A queue without resets gives no reset for as long as it lasts. -/
theorem noReset_of_inputs {s : State} {k : Nat} (hk : k ≤ s.inputs.length)
    (h : ∀ i ∈ s.inputs, i.rst = false) : NoReset s k := by
  intro j hj
  have e : s.inputs[j]? = some s.inputs[j] := List.getElem?_eq_getElem (by omega)
  simp only [State.inputAt, e]
  exact h _ (List.getElem_mem _)

/-- `k` ticks at level `L` in the queue, `a` ticks from now. -/
theorem lineHolds_of_inputs {s : State} {pre post : List InputWord} {L : Level} {a k : Nat}
    (h : s.inputs = pre ++ (lineTicks L k ++ post)) (ha : pre.length = a) : LineHolds s a k L := by
  intro j hj
  have e : s.inputs[a + j]? = some { rst := false, start := false, lineIn := L } := by
    rw [h, List.getElem?_append_right (by omega), List.getElem?_append_left (by simp; omega)]
    simp [lineTicks, ha, hj]
  simp [State.inputAt, e]

/-- A queue that holds a response from tick `ta` on carries its line trace (R112). -/
theorem lineAnswers_of_inputs {s : State} {pre : List InputWord} {ta a0 a1 : Nat} {l h : Nat → Nat}
    (hs : s.inputs = pre ++ responseTicks a0 a1 l h) (ha : pre.length = ta) : LineAnswers s ta a0 a1 l h := by
  have len := length_slotsTicks a0 a1 l h
  refine ⟨lineHolds_of_inputs hs ha, ?_, fun i hi => ?_, ?_⟩
  · exact lineHolds_of_inputs (pre := pre ++ lineTicks .low a0) (post := slotsTicks l h 40 ++ lineTicks .low 3)
      (by rw [hs, responseTicks]; simp) (by simp [ha])
  · obtain ⟨rest, hr⟩ := slotsTicks_split l h hi
    have hi' := len i
    constructor
    · refine lineHolds_of_inputs (pre := pre ++ (lineTicks .low a0 ++ (lineTicks .high a1 ++ slotsTicks l h i)))
        (post := lineTicks .high (h i) ++ (rest ++ lineTicks .low 3)) ?_ (by simp; omega)
      rw [hs, responseTicks, hr]; simp
    · refine lineHolds_of_inputs
        (pre := pre ++ (lineTicks .low a0 ++ (lineTicks .high a1 ++ (slotsTicks l h i ++ lineTicks .low (l i)))))
        (post := rest ++ lineTicks .low 3) ?_ (by simp; omega)
      rw [hs, responseTicks, hr]; simp
  · have h40 := len 40
    refine lineHolds_of_inputs (pre := pre ++ (lineTicks .low a0 ++ (lineTicks .high a1 ++ slotsTicks l h 40)))
      (post := lineTicks .low 2) ?_ (by simp; omega)
    rw [hs, responseTicks]; simp [lineTicks, List.replicate_succ]

end Sys2Proof.Machine
end

