-- ==== Sys2Proof/Laws/PerInstr.lean ====
section
/-! SUPPORT. Per-instruction laws. The family RowMatch: the control word of a well-formed instruction selects that
instruction's own row of the operation map, `(c & mask) = match` (30_encoding.md R46). -/

namespace Sys2Proof.Laws.RowMatch

open Sys2Proof

def Statement (i : Instr) : Prop := i.WellFormed = true → encode i &&& (rowOf i).2 = (rowOf i).1

theorem reset (start : Bool) (st : St) : Statement (.reset start st) := by
  unfold Statement
  cases st with
  | reserved k => revert k; cases start <;> decide
  | _ => cases start <;> decide

theorem wait (st : St) : Statement (.wait st) := by
  unfold Statement
  cases st with
  | reserved k => simp [Instr.WellFormed, St.isWaiting]
  | _ => decide

theorem start (st : St) : Statement (.start st) := by
  unfold Statement
  cases st with
  | reserved k => simp [Instr.WellFormed, St.isWaiting]
  | _ => decide

theorem reqLow (start : Bool) : Statement (.reqLow start) := by
  unfold Statement; cases start <;> decide

theorem reqHigh (start : Bool) : Statement (.reqHigh start) := by
  unfold Statement; cases start <;> decide

theorem ack1 (start : Bool) : Statement (.ack1 start) := by
  unfold Statement; cases start <;> decide

theorem ack2 (start : Bool) : Statement (.ack2 start) := by
  unfold Statement; cases start <;> decide

theorem bitLow (start : Bool) : Statement (.bitLow start) := by
  unfold Statement; cases start <;> decide

theorem bitHigh (start : Bool) : Statement (.bitHigh start) := by
  unfold Statement; cases start <;> decide

theorem assemble (start : Bool) : Statement (.assemble start) := by
  unfold Statement; cases start <;> decide

theorem validate (start : Bool) : Statement (.validate start) := by
  unfold Statement; cases start <;> decide

theorem rsv (start : Bool) (st : St) : Statement (.rsv start st) := by
  unfold Statement
  cases st with
  | reserved k => revert k; cases start <;> decide
  | _ => simp [Instr.WellFormed, St.isReserved]

end Sys2Proof.Laws.RowMatch
end

