-- ==== Sys2Proof/Laws/Step.lean ====
section
/-! SUPPORT. Which operation a step performs, one lemma per row of the operation map, and how runs of ticks compose. -/

namespace Sys2Proof.Machine

variable {s t : State}

/-- A step is the operation the control word selects, then the input consumed. -/
theorem step_of_exec {i : Instr} {u : State} (hd : decode s.controlWord = i) (he : exec i s = .next u) :
    step s = .next u.consumeInput := by
  simp [step, hd, he]

theorem step_reset (h : (s.inputAt 0).rst = true) : step s = .next s.resetRegisters.consumeInput :=
  step_of_exec (by rw [State.controlWord, State.inputNow, h, decode_of_rst]) rfl

theorem decode_no_reset (h : (s.inputAt 0).rst = false) :
    s.controlWord = Sys2Proof.controlWord false (s.inputAt 0).start s.st := by
  rw [State.controlWord, State.inputNow, h]

theorem step_wait (h : (s.inputAt 0).rst = false) (hs : (s.inputAt 0).start = false)
    (hst : s.st.isWaiting = true) : step s = .next s.consumeInput := by
  refine step_of_exec (i := .wait s.st) ?_ rfl
  rw [decode_no_reset h, decode_of_no_rst, hs]
  revert hst; cases s.st <;> simp [St.isWaiting]

theorem step_start (h : ReadBegins s) : step s = .next s.beginRead.consumeInput := by
  obtain ⟨hst, h, hs⟩ := h
  refine step_of_exec (i := .start s.st) ?_ rfl
  rw [decode_no_reset h, decode_of_no_rst, hs]
  revert hst; cases s.st <;> simp [St.isWaiting]

theorem step_reqLow (h : (s.inputAt 0).rst = false) (hst : s.st = .reqLow) :
    step s = .next (s.holdWindow tStartLow .reqHigh).consumeInput :=
  step_of_exec (i := .reqLow _) (by rw [decode_no_reset h, hst, decode_of_no_rst]) rfl

theorem step_reqHigh (h : (s.inputAt 0).rst = false) (hst : s.st = .reqHigh) :
    step s = .next (s.holdWindow tStartHigh .awaitAck1).consumeInput :=
  step_of_exec (i := .reqHigh _) (by rw [decode_no_reset h, hst, decode_of_no_rst]) rfl

theorem step_ack1 (h : (s.inputAt 0).rst = false) (hst : s.st = .awaitAck1) :
    step s = .next (s.measure .low bAckLow fun _ s => s.enter .awaitAck2 1).consumeInput :=
  step_of_exec (i := .ack1 _) (by rw [decode_no_reset h, hst, decode_of_no_rst]) rfl

theorem step_ack2 (h : (s.inputAt 0).rst = false) (hst : s.st = .awaitAck2) :
    step s = .next (s.measure .high bAckHigh fun _ s => s.enter .bitLow 1).consumeInput :=
  step_of_exec (i := .ack2 _) (by rw [decode_no_reset h, hst, decode_of_no_rst]) rfl

theorem step_bitLow (h : (s.inputAt 0).rst = false) (hst : s.st = .bitLow) :
    step s = .next (s.measure .low bBitLow fun _ s => s.enter .bitHigh 1).consumeInput :=
  step_of_exec (i := .bitLow _) (by rw [decode_no_reset h, hst, decode_of_no_rst]) rfl

theorem step_bitHigh (h : (s.inputAt 0).rst = false) (hst : s.st = .bitHigh) :
    step s = .next (s.measure .high bBitHigh endBitHigh).consumeInput :=
  step_of_exec (i := .bitHigh _) (by rw [decode_no_reset h, hst, decode_of_no_rst]) rfl

theorem step_assemble (h : (s.inputAt 0).rst = false) (hst : s.st = .assembling) :
    step s = .next (State.consumeInput { s with st := .validating }) :=
  step_of_exec (i := .assemble _) (by rw [decode_no_reset h, hst, decode_of_no_rst]) rfl

theorem step_validate (h : (s.inputAt 0).rst = false) (hst : s.st = .validating) :
    step s = .next (State.consumeInput
      (if frameSum s.frame = s.frame[4] then s.commit else s.raise .checksumMismatch)) :=
  step_of_exec (i := .validate _) (by rw [decode_no_reset h, hst, decode_of_no_rst]) rfl

theorem step_rsv {k : BitVec 2} (h : (s.inputAt 0).rst = false) (hst : s.st = .reserved k) :
    step s = .next (State.consumeInput { s with st := .idle }) :=
  step_of_exec (i := .rsv _ _) (by rw [decode_no_reset h, hst, decode_of_no_rst]) rfl

/-- Everything a step can do: the reset, or without one the operation of the state it is in. -/
theorem step_cases (h : step s = .next t) :
    ((s.inputAt 0).rst = true ∧ t = s.resetRegisters.consumeInput) ∨
    ((s.inputAt 0).rst = false ∧
      ((s.st.isWaiting = true ∧ (s.inputAt 0).start = false ∧ t = s.consumeInput) ∨
       (ReadBegins s ∧ t = s.beginRead.consumeInput) ∨
       (s.st = .reqLow ∧ t = (s.holdWindow tStartLow .reqHigh).consumeInput) ∨
       (s.st = .reqHigh ∧ t = (s.holdWindow tStartHigh .awaitAck1).consumeInput) ∨
       (s.st = .awaitAck1 ∧ t = (s.measure .low bAckLow fun _ s => s.enter .awaitAck2 1).consumeInput) ∨
       (s.st = .awaitAck2 ∧ t = (s.measure .high bAckHigh fun _ s => s.enter .bitLow 1).consumeInput) ∨
       (s.st = .bitLow ∧ t = (s.measure .low bBitLow fun _ s => s.enter .bitHigh 1).consumeInput) ∨
       (s.st = .bitHigh ∧ t = (s.measure .high bBitHigh endBitHigh).consumeInput) ∨
       (s.st = .assembling ∧ t = State.consumeInput { s with st := .validating }) ∨
       (s.st = .validating ∧ t = State.consumeInput
         (if frameSum s.frame = s.frame[4] then s.commit else s.raise .checksumMismatch)) ∨
       ((∃ k, s.st = .reserved k) ∧ t = State.consumeInput { s with st := .idle }))) := by
  by_cases hr : (s.inputAt 0).rst = true
  · rw [step_reset hr] at h; cases h; exact .inl ⟨hr, rfl⟩
  have hr : (s.inputAt 0).rst = false := by simpa using hr
  refine .inr ⟨hr, ?_⟩
  by_cases hw : s.st.isWaiting = true
  · by_cases hs : (s.inputAt 0).start = true
    · rw [step_start ⟨hw, hr, hs⟩] at h; cases h; exact .inr (.inl ⟨⟨hw, hr, hs⟩, rfl⟩)
    · have hs : (s.inputAt 0).start = false := by simpa using hs
      rw [step_wait hr hs hw] at h; cases h; exact .inl ⟨hw, hs, rfl⟩
  refine .inr (.inr ?_)
  cases hst : s.st with
  | idle | done | failTimeout | failChecksum => simp [hst, St.isWaiting] at hw
  | reqLow     => rw [step_reqLow hr hst] at h; cases h; simp
  | reqHigh    => rw [step_reqHigh hr hst] at h; cases h; simp
  | awaitAck1  => rw [step_ack1 hr hst] at h; cases h; simp
  | awaitAck2  => rw [step_ack2 hr hst] at h; cases h; simp
  | bitLow     => rw [step_bitLow hr hst] at h; cases h; simp
  | bitHigh    => rw [step_bitHigh hr hst] at h; cases h; simp
  | assembling => rw [step_assemble hr hst] at h; cases h; simp
  | validating => rw [step_validate hr hst] at h; cases h; simp
  | reserved k => rw [step_rsv hr hst] at h; cases h; simp

/-! ## Runs of ticks -/

theorem runTicks_succ (h : step s = .next t) (k : Nat) : runTicks (k + 1) s = runTicks k t := by
  simp [runTicks, h]

/-- The model's run is the host's run of `core`. -/
theorem runTicks_eq_core_run (k : Nat) (s : State) : runTicks k s = Host.Core.run Sys2Proof.core k s := by
  induction k generalizing s with
  | zero => rfl
  | succ k ih =>
    simp only [runTicks, Host.Core.run, Sys2Proof.core]
    cases step s <;> simp [ih, Sys2Proof.core]

theorem after_zero {P : State → Prop} (h : P s) : After 0 s P := ⟨s, rfl, h⟩

theorem after_succ {P : State → Prop} {k : Nat} (h : step s = .next t) : After (k + 1) s P ↔ After k t P := by
  simp [After, runTicks_succ h]

/-- Runs compose: `a` ticks to a state with `P`, then `b` ticks from any such state to one with `Q`. -/
theorem After.trans {P Q : State → Prop} {a b : Nat} {s : State} (h : After a s P)
    (hQ : ∀ t, runTicks a s = .next t → P t → After b t Q) : After (a + b) s Q := by
  induction a generalizing s with
  | zero => obtain ⟨t, e, hp⟩ := h; simpa using hQ t e hp |> fun r => (by cases e; exact r)
  | succ a ih =>
    obtain ⟨t, e, hp⟩ := h
    cases hs : step s with
    | next u =>
      rw [runTicks_succ hs] at e
      rw [Nat.add_right_comm, after_succ hs]
      exact ih ⟨t, e, hp⟩ fun v ev => hQ v (by rw [runTicks_succ hs]; exact ev)
    | fault r => cases r
    | refused r => simp [runTicks, hs] at e

theorem After.imp {P Q : State → Prop} {k : Nat} {s : State} (h : After k s P) (hPQ : ∀ t, P t → Q t) :
    After k s Q := by
  obtain ⟨t, e, hp⟩ := h; exact ⟨t, e, hPQ t hp⟩

end Sys2Proof.Machine
end

