-- ==== Sys2Proof/Tests/Slice0.lean ====
section
/-! SUPPORT. Tests. The expected results are those of 95_test_vectors.md, named beside each test, or the spec's own tables.
After them, for every statement with hypotheses, a state and operands that meet them together. -/

namespace Sys2Proof.Tests

open Sys2Proof Sys2Proof.Machine

/-! ## Well-formedness: one ill-formed term for each check -/

theorem test_wait_in_a_busy_state_is_ill_formed : (Instr.wait .bitLow).WellFormed = false := by decide

theorem test_start_in_a_busy_state_is_ill_formed : (Instr.start .validating).WellFormed = false := by decide

theorem test_rsv_in_a_named_state_is_ill_formed : (Instr.rsv false .idle).WellFormed = false := by decide

/-! ## Decoding: words written out from the pattern column of R46 -/

theorem test_decode_reset : decode 0b110101 = .reset true .reqHigh := by decide
theorem test_decode_wait : decode 0b000011 = .wait .failChecksum := by decide
theorem test_decode_start : decode 0b010001 = .start .done := by decide
theorem test_decode_req_low : decode 0b010100 = .reqLow true := by decide
theorem test_decode_req_high : decode 0b000101 = .reqHigh false := by decide
theorem test_decode_ack1 : decode 0b000110 = .ack1 false := by decide
theorem test_decode_ack2 : decode 0b010111 = .ack2 true := by decide
theorem test_decode_bit_low : decode 0b001000 = .bitLow false := by decide
theorem test_decode_bit_high : decode 0b011001 = .bitHigh true := by decide
theorem test_decode_assemble : decode 0b001010 = .assemble false := by decide
theorem test_decode_validate : decode 0b001011 = .validate false := by decide
theorem test_decode_rsv : decode 0b011110 = .rsv true (.reserved 2) := by decide

theorem test_decode_byte_above_the_control_word : decodeByte 0b01000000 = .error .notAControlWord := by decide

theorem test_decode_table_word : decodeTableWord 8 0b001001 = some (.bitHigh false) := by decide

/-! ## One tick of each operation -/

/-- A state with the store (44, 0, 24, 5, 73) of the vectors and one input word, in octal. -/
def bench (st : St) (cnt : Count) (n : BitIndex) (f : Vector Byte 5) (word : BitVec 3) : State where
  st      := st
  cnt     := cnt
  n       := n
  frame   := f
  storeHi := 44
  storeHf := 0
  storeTi := 24
  storeTf := 5
  storeCk := 73
  valid   := true
  inputs  := [InputWord.ofBits word]
  tick    := 0

/-- The state after one tick, if the step answers one. -/
def tickOf (s : State) : Option State :=
  match step s with
  | .next t => some t
  | _ => none

/-- The five bytes of the store. -/
def store (s : State) : List Byte := [s.storeHi, s.storeHf, s.storeTi, s.storeTf, s.storeCk]

/-- V-RS-1 -/
theorem test_reset_in_bit_low :
    (tickOf (bench .bitLow 10 20 #v[1, 2, 3, 0, 0] 5)).map (fun t => (t.st, t.cnt, t.n, store t, t.valid)) =
      some (.idle, 0, 0, [0, 0, 0, 0, 0], false) := by decide

/-- V-EX-6: reset wins over a timeout due at the same tick -/
theorem test_reset_wins_over_a_timeout :
    (tickOf (bench .awaitAck1 83 0 zeroFrame 4)).map (fun t => (t.st, t.cnt)) = some (.idle, 0) := by decide

/-- V-IF-1 -/
theorem test_wait_in_done :
    (tickOf (bench .done 0 39 #v[0x2c, 0, 0x18, 5, 0x49] 1)).map (fun t => (t.outputs.status, t.n, t.frame, store t)) =
      some (2, 39, #v[0x2c, 0, 0x18, 5, 0x49], [44, 0, 24, 5, 73]) := by decide

/-- V-IF-3 -/
theorem test_start_from_a_failure :
    (tickOf (bench .failChecksum 0 39 #v[0x32, 0, 0x18, 5, 0x50] 3)).map
        (fun t => (t.cnt, t.n, t.frame, store t, t.outputs.status)) =
      some (0, 0, #v[0, 0, 0, 0, 0], [44, 0, 24, 5, 73], 1) := by decide

/-- V-LD-1 -/
theorem test_req_low_counts :
    (tickOf (bench .reqLow 0 0 zeroFrame 0)).map (fun t => (t.st, t.cnt, t.lineOe, t.lineOut)) =
      some (.reqLow, 1, true, .low) := by decide

/-- V-LD-2 -/
theorem test_req_low_ends :
    (tickOf (bench .reqLow 19999 0 zeroFrame 1)).map (fun t => (t.st, t.cnt, t.lineOe, t.lineOut)) =
      some (.reqHigh, 0, true, .high) := by decide

/-- V-LD-3 -/
theorem test_req_high_ends :
    (tickOf (bench .reqHigh 29 0 zeroFrame 0)).map (fun t => (t.st, t.cnt, t.lineOe, t.lineOut)) =
      some (.awaitAck1, 0, false, .low) := by decide

/-- V-LD-5 -/
theorem test_req_high_counts :
    (tickOf (bench .reqHigh 28 0 zeroFrame 1)).map (fun t => (t.st, t.cnt)) = some (.reqHigh, 29) := by decide

/-- V-PT-3 -/
theorem test_ack1_times_out :
    (tickOf (bench .awaitAck1 83 0 zeroFrame 0)).map (fun t => (t.outputs.status, t.cnt)) = some (3, 83) := by decide

/-- V-PT-5a -/
theorem test_ack1_ends_at_once :
    (tickOf (bench .awaitAck1 0 0 zeroFrame 1)).map (fun t => (t.st, t.cnt)) = some (.awaitAck2, 1) := by decide

/-- V-PT-6 -/
theorem test_ack2_counts :
    (tickOf (bench .awaitAck2 86 0 zeroFrame 1)).map (fun t => (t.st, t.cnt)) = some (.awaitAck2, 87) := by decide

/-- V-PT-8 -/
theorem test_ack2_ends :
    (tickOf (bench .awaitAck2 80 0 zeroFrame 0)).map (fun t => (t.st, t.cnt, t.n)) = some (.bitLow, 1, 0) := by decide

/-- V-PT-9a -/
theorem test_bit_low_times_out :
    (tickOf (bench .bitLow 50 0 zeroFrame 0)).map (fun t => (t.st, t.cnt)) = some (.failTimeout, 50) := by decide

/-- V-IF-5a: a start request while busy is ignored -/
theorem test_bit_low_ignores_start :
    (tickOf (bench .bitLow 5 9 zeroFrame 2)).map (fun t => (t.st, t.cnt, t.n)) = some (.bitLow, 6, 9) := by decide

/-- V-BA-3 -/
theorem test_bit_high_places_a_one :
    (tickOf (bench .bitHigh 70 2 zeroFrame 0)).map (fun t => (t.st, t.cnt, t.n, t.frame)) =
      some (.bitLow, 1, 3, #v[0x20, 0, 0, 0, 0]) := by decide

/-- V-BA-4 -/
theorem test_bit_high_ends_the_payload :
    (tickOf (bench .bitHigh 41 39 #v[1, 2, 3, 4, 0x08] 0)).map (fun t => (t.st, t.cnt, t.n, t.frame)) =
      some (.assembling, 0, 39, #v[1, 2, 3, 4, 0x09]) := by decide

/-- V-BA-6 -/
theorem test_assemble :
    (tickOf (bench .assembling 0 39 #v[0x32, 0, 0x18, 5, 0x4f] 0)).map (fun t => (t.st, t.frame, store t)) =
      some (.validating, #v[0x32, 0, 0x18, 5, 0x4f], [44, 0, 24, 5, 73]) := by decide

/-- V-CV-4 -/
theorem test_validate_commits_the_largest_reading :
    (tickOf (bench .validating 0 39 #v[255, 255, 255, 255, 0xFC] 1)).map
        (fun t => (t.outputs.status, store t, t.humX10, t.tempX10)) =
      some (2, [255, 255, 255, 255, 252], 2805, 2805) := by decide

/-- V-CV-2 -/
theorem test_validate_rejects :
    (tickOf (bench .validating 0 39 #v[0x32, 0, 0x18, 5, 0x50] 1)).map (fun t => (t.outputs.status, store t, t.valid)) =
      some (4, [44, 0, 24, 5, 73], true) := by decide

/-- V-RS-4 -/
theorem test_rsv :
    (tickOf (bench (.reserved 1) 5 7 #v[1, 2, 3, 4, 5] 3)).map (fun t => (t.st, t.cnt, t.n, t.frame, store t)) =
      some (.idle, 5, 7, #v[1, 2, 3, 4, 5], [44, 0, 24, 5, 73]) := by decide

/-- W1 -/
theorem test_classify : classify 40 = false ∧ classify 41 = true := by decide

/-- R52: a slot of each value, as its run-length list -/
theorem test_slot_ticks :
    runLengths (slotTicks false) = [(0, 50), (1, 28)] ∧ runLengths (slotTicks true) = [(0, 50), (1, 70)] := by decide

/-- The first step from reset with a presented word runs that word's operation. -/
theorem test_presented_start_runs_from_reset :
    (tickOf (State.reset.withFetchWord 8 0b010000)).map (fun t => (t.st, t.tick)) = some (.reqLow, 1) := by decide

/-! ## Witnesses: states that meet the statements' hypotheses -/

/-- A waiting or other state with a queue of inputs. -/
def queued (st : St) (ins : List InputWord) : State := { State.reset with st := st, inputs := ins }

/-- A caller's START followed by `rest`. -/
def started (rest : List InputWord) : State :=
  queued .idle ({ rst := false, start := true, lineIn := .high } :: rest)

theorem started_begins (rest : List InputWord) : ReadBegins (started rest) := ⟨rfl, rfl, rfl⟩

theorem started_noReset {rest : List InputWord} {k : Nat} (h : ∀ i ∈ rest, i.rst = false)
    (hk : k ≤ rest.length + 1) : NoReset (started rest) k := by
  refine noReset_of_inputs (by simpa [started, queued] using hk) fun i hi => ?_
  simp only [started, queued, List.mem_cons] at hi
  rcases hi with rfl | hi
  · rfl
  · exact h i hi

theorem lineTicks_rst {L : Level} {k : Nat} {i : InputWord} (h : i ∈ lineTicks L k) : i.rst = false := by
  simp only [lineTicks, List.mem_replicate] at h; rw [h.2]

theorem queued_noReset (st : St) {ins : List InputWord} {k : Nat} (h : ∀ i ∈ ins, i.rst = false)
    (hk : k ≤ ins.length) : NoReset (queued st ins) k := noReset_of_inputs hk h

/-- A line of `k` samples at one level, then one at the other: no reset, and both levels as said. -/
theorem witness_line (st : St) (L M : Level) (k : Nat) :
    NoReset (queued st (lineTicks L k ++ lineTicks M 1)) (k + 1) ∧
    LineHolds (queued st (lineTicks L k ++ lineTicks M 1)) 0 k L ∧
    LineHolds (queued st (lineTicks L k ++ lineTicks M 1)) k 1 M := by
  refine ⟨queued_noReset st ?_ (by simp), ?_, ?_⟩
  · intro i hi
    rcases List.mem_append.1 hi with hi | hi
    · exact lineTicks_rst hi
    · exact lineTicks_rst hi
  · exact lineHolds_of_inputs (pre := []) (post := lineTicks M 1) rfl rfl
  · exact lineHolds_of_inputs (pre := lineTicks L k) (post := []) (by simp [queued]) (by simp)

theorem witness_DecodePriority : St.isWaiting .failChecksum = true := by decide

theorem witness_DecodeEncodeRoundTrip :
    (Instr.wait .done).WellFormed = true ∧ (Instr.start .idle).WellFormed = true ∧
    (Instr.rsv true (.reserved 3)).WellFormed = true := by decide

theorem witness_PresentedControlWordIsFetched : (63 < 64) ∧ (1 ≤ 1) := by decide

theorem witness_OnlyControlWordsDecode :
    BitVec.getLsbD (64 : Byte) 6 = true ∧ BitVec.getLsbD (128 : Byte) 7 = true ∧
    BitVec.getLsbD (63 : Byte) 6 = false ∧ BitVec.getLsbD (63 : Byte) 7 = false := by decide

theorem witness_StepRunsTheDecodedInstruction :
    (Instr.start .idle).WellFormed = true ∧ (started []).controlWord = encode (.start .idle) ∧
    exec (.start .idle) (started []) = .next (started []).beginRead := ⟨by decide, by decide, rfl⟩

theorem witness_ResetTakesTheResetValues :
    ∀ j < 1 + 1, ((queued .bitHigh [InputWord.ofBits 5, InputWord.ofBits 6]).inputAt j).rst = true := by decide

theorem witness_ResetStateIsTheTable : RegistersReset State.reset :=
  ⟨rfl, rfl, rfl, rfl, rfl, rfl, rfl, rfl, rfl, rfl⟩

theorem witness_WaitHolds :
    (queued .done (lineTicks .high 2)).st.isWaiting = true ∧
    ∀ j < 2, ((queued .done (lineTicks .high 2)).inputAt j).rst = false ∧
      ((queued .done (lineTicks .high 2)).inputAt j).start = false := by decide

theorem witness_StartBeginsARead :
    ReadBegins (started []) ∧ (queued .done [InputWord.ofBits 7]).st.isWaiting = true ∧
    ((queued .done [InputWord.ofBits 7]).inputAt 0).rst = true ∧
    ((queued .done [InputWord.ofBits 7]).inputAt 0).start = true := ⟨started_begins [], rfl, rfl, rfl⟩

theorem witness_StartWhileBusyIsIgnored :
    (queued .bitLow []).st.isBusy = true ∧ (InputWord.ofBits 2).rst = false := by decide

theorem witness_LineIsReadOnlyInThePhases :
    (queued .validating []).st ≠ .awaitAck1 ∧ (queued .validating []).st ≠ .awaitAck2 ∧
    (queued .validating []).st ≠ .bitLow ∧ (queued .validating []).st ≠ .bitHigh := by decide

theorem witness_StartForgetsTheReadBefore :
    ReadBegins (started []) ∧ St.isWaiting .failTimeout = true ∧
    SameStore (started []) { started [] with st := .failTimeout, n := 17, frame := #v[0x2c, 0, 0, 0, 0] } ∧
    SameInputs (started []) { started [] with st := .failTimeout, n := 17, frame := #v[0x2c, 0, 0, 0, 0] } :=
  ⟨started_begins [], rfl, ⟨rfl, rfl, rfl, rfl, rfl, rfl⟩, rfl, rfl⟩

theorem witness_StartHeldBeginsTheNextRead :
    (queued .validating [InputWord.ofBits 2, InputWord.ofBits 2]).st.isBusy = true ∧
    step (queued .validating [InputWord.ofBits 2, InputWord.ofBits 2]) =
      .next (queued .validating [InputWord.ofBits 2, InputWord.ofBits 2]).commit.consumeInput ∧
    (queued .validating [InputWord.ofBits 2, InputWord.ofBits 2]).commit.consumeInput.st.isWaiting = true ∧
    NoReset (queued .validating [InputWord.ofBits 2, InputWord.ofBits 2]) 2 ∧
    ((queued .validating [InputWord.ofBits 2, InputWord.ofBits 2]).inputAt 1).start = true :=
  ⟨rfl, rfl, rfl, queued_noReset _ (by decide) (by decide), rfl⟩

/-- Each clause of LineOutputs and BusyAndStatus. -/
theorem witness_LineOutputs :
    (queued .reqLow []).st = .reqLow ∧ (queued .reqHigh []).st = .reqHigh ∧
    (queued .idle []).st ≠ .reqLow ∧ (queued .idle []).st ≠ .reqHigh := by decide

theorem witness_BusyAndStatus :
    (queued .idle []).st = .idle ∧ (queued .bitLow []).st.isBusy = true ∧ (queued .done []).st = .done ∧
    (queued .failTimeout []).st = .failTimeout ∧ (queued .failChecksum []).st = .failChecksum ∧
    (queued (.reserved 0) []).st = .reserved 0 := by decide

theorem witness_OutputsHideTheReadInProgress :
    (bench .bitHigh 3 4 zeroFrame 0).st = (bench .bitHigh 7 9 #v[1, 2, 3, 4, 5] 1).st ∧
    SameStore (bench .bitHigh 3 4 zeroFrame 0) (bench .bitHigh 7 9 #v[1, 2, 3, 4, 5] 1) :=
  ⟨rfl, rfl, rfl, rfl, rfl, rfl, rfl⟩

/-- The whole window, and the two clauses at its last tick and the one before. -/
theorem witness_ReqLowWindow :
    NoReset (queued .reqLow (lineTicks .low 20000)) 20000 ∧ (queued .reqLow (lineTicks .low 20000)).st = .reqLow ∧
    (queued .reqLow (lineTicks .low 20000)).cnt = 0 ∧ BitVec.toNat (19999 : Count) = 19999 ∧
    BitVec.toNat (19998 : Count) ≠ 19999 :=
  ⟨queued_noReset _ (fun _ => lineTicks_rst) (by simp), rfl, rfl, by decide, by decide⟩

theorem witness_ReqHighWindow :
    NoReset (queued .reqHigh (lineTicks .low 30)) 30 ∧ (queued .reqHigh (lineTicks .low 30)).st = .reqHigh ∧
    (queued .reqHigh (lineTicks .low 30)).cnt = 0 ∧ BitVec.toNat (29 : Count) = 29 ∧
    BitVec.toNat (28 : Count) ≠ 29 :=
  ⟨queued_noReset _ (fun _ => lineTicks_rst) (by simp), rfl, rfl, by decide, by decide⟩

theorem witness_StartRequestTiming :
    ReadBegins (started (lineTicks .low 20030)) ∧ NoReset (started (lineTicks .low 20030)) 20031 :=
  ⟨started_begins _, started_noReset (fun _ => lineTicks_rst) (by simp)⟩

/-- Each entry of the start request: a START, the end of REQ_LOW, the end of REQ_HIGH. -/
theorem witness_RequestIsEnteredInOrder :
    step (started []) = .next (started []).beginRead.consumeInput ∧ (started []).beginRead.consumeInput.st = .reqLow ∧
    step (bench .reqLow 19999 0 zeroFrame 0) =
      .next ((bench .reqLow 19999 0 zeroFrame 0).enter .reqHigh 0).consumeInput ∧
    step (bench .reqHigh 29 0 zeroFrame 0) =
      .next ((bench .reqHigh 29 0 zeroFrame 0).enter .awaitAck1 0).consumeInput := ⟨rfl, rfl, rfl, rfl⟩

/-- PhaseTick's three clauses, at the bound, below it, and away from the level; the same states serve every phase. -/
theorem witness_PhaseTick :
    (bench .awaitAck1 83 0 zeroFrame 0).lineIn = .low ∧ (bench .awaitAck1 83 0 zeroFrame 0).cnt.toNat = 83 ∧
    (bench .awaitAck1 82 0 zeroFrame 0).cnt.toNat ≠ 83 ∧ (bench .awaitAck1 0 0 zeroFrame 1).lineIn ≠ .low ∧
    (bench .awaitAck2 87 0 zeroFrame 1).lineIn = .high ∧ (bench .awaitAck2 87 0 zeroFrame 1).cnt.toNat = 87 ∧
    (bench .bitLow 50 0 zeroFrame 0).lineIn = .low ∧ (bench .bitLow 50 0 zeroFrame 0).cnt.toNat = 50 ∧
    (bench .bitHigh 70 39 zeroFrame 1).lineIn = .high ∧ (bench .bitHigh 70 39 zeroFrame 1).cnt.toNat = 70 ∧
    (bench .bitHigh 70 39 zeroFrame 0).lineIn ≠ .high ∧ (bench .bitHigh 70 39 zeroFrame 0).n.toNat = 39 ∧
    (bench .bitHigh 41 38 zeroFrame 0).n.toNat ≠ 39 := by decide

theorem witness_Ack1Measures :
    NoReset (queued .awaitAck1 (lineTicks .low 84 ++ lineTicks .high 1)) 84 ∧
    LineHolds (queued .awaitAck1 (lineTicks .low 84 ++ lineTicks .high 1)) 0 84 .low ∧
    LineHolds (queued .awaitAck1 (lineTicks .high 1 ++ lineTicks .low 1)) 0 1 .high :=
  ⟨(witness_line _ _ _ 84).1.mono (by omega), (witness_line _ _ _ 84).2.1, (witness_line _ _ _ 1).2.1⟩

/-- A state with the count 1 of a phase's first tick (R67). -/
def counted (s : State) : State := { s with cnt := 1 }

theorem counted_noReset {s : State} {k : Nat} (h : NoReset s k) : NoReset (counted s) k :=
  fun j hj => (State.inputAt_congr (s := s) (t := counted s) ⟨rfl, rfl⟩ j) ▸ h j hj

theorem counted_lineHolds {s : State} {a k : Nat} {L : Level} (h : LineHolds s a k L) : LineHolds (counted s) a k L :=
  fun j hj => (State.inputAt_congr (s := s) (t := counted s) ⟨rfl, rfl⟩ (a + j)) ▸ h j hj

theorem witness_Ack2Measures :
    NoReset (counted (queued .awaitAck2 (lineTicks .high 87 ++ lineTicks .low 1))) 87 ∧
    LineHolds (counted (queued .awaitAck2 (lineTicks .high 87 ++ lineTicks .low 1))) 0 87 .high :=
  ⟨counted_noReset ((witness_line _ _ _ 87).1.mono (by omega)), counted_lineHolds (witness_line _ _ _ 87).2.1⟩

theorem witness_ClassifyAtTheThreshold :
    RegisterBounds (bench .bitHigh 70 39 zeroFrame 1) ∧ (bench .bitHigh 70 39 zeroFrame 1).st = .bitHigh := by
  unfold RegisterBounds; decide

/-- Both ends of BIT_LOW: a 50th sample still low, and a high after 49. -/
theorem witness_BitLowMeasures (M : Level) :
    NoReset (counted (queued .bitLow (lineTicks .low 49 ++ lineTicks M 1))) 50 ∧
    LineHolds (counted (queued .bitLow (lineTicks .low 49 ++ lineTicks M 1))) 0 49 .low ∧
    LineHolds (counted (queued .bitLow (lineTicks .low 49 ++ lineTicks M 1))) 49 1 M :=
  ⟨counted_noReset (witness_line _ _ _ 49).1, counted_lineHolds (witness_line _ _ _ 49).2.1,
    counted_lineHolds (witness_line _ _ _ 49).2.2⟩

theorem witness_BitHighMeasuresAndPlaces (M : Level) :
    NoReset (counted (queued .bitHigh (lineTicks .high 69 ++ lineTicks M 1))) 70 ∧
    LineHolds (counted (queued .bitHigh (lineTicks .high 69 ++ lineTicks M 1))) 0 69 .high ∧
    LineHolds (counted (queued .bitHigh (lineTicks .high 69 ++ lineTicks M 1))) 69 1 M ∧
    (counted (queued .bitHigh (lineTicks .high 69 ++ lineTicks M 1))).n.toNat < 40 :=
  ⟨counted_noReset (witness_line _ _ _ 69).1, counted_lineHolds (witness_line _ _ _ 69).2.1,
    counted_lineHolds (witness_line _ _ _ 69).2.2, by simp [counted, queued, State.reset]⟩

/-- A run of `d = 83` within ACK1's bound, one of `d = 0`, and a run of 84. -/
theorem witness_PhaseRunLengths :
    (NoReset (queued .awaitAck1 (lineTicks .low 83 ++ lineTicks .high 1)) (83 - 0 + 1) ∧
      LineHolds (queued .awaitAck1 (lineTicks .low 83 ++ lineTicks .high 1)) 0 (83 - 0) .low ∧
      LineHolds (queued .awaitAck1 (lineTicks .low 83 ++ lineTicks .high 1)) (83 - 0) 1 .high) ∧
    ((queued .awaitAck1 (lineTicks .high 1)).inputAt (0 - 0)).lineIn ≠ .low ∧
    LineHolds (queued .awaitAck1 (lineTicks .low 84 ++ lineTicks .high 1)) 0 (83 + 1 - 0) .low :=
  ⟨witness_line _ _ _ 83, by decide, (witness_line _ _ _ 84).2.1⟩

/-- A frame that passes and one that does not (V-CV-1, V-CV-2). -/
theorem witness_ValidateCommitsOrFails :
    ChecksumMatches #v[0x32, 0, 0x18, 5, 0x4F] ∧ ¬ ChecksumMatches #v[0x32, 0, 0x18, 5, 0x50] := by
  unfold ChecksumMatches; decide

theorem witness_OneChecksumBytePasses :
    (bench .validating 0 39 #v[200, 100, 0, 0, 44] 0).frame = #v[200, 100, 0, 0, 44] := by decide

/-- A reset, a commit, and a step that is neither. -/
theorem witness_StoreHasTwoWriters :
    ((bench .idle 0 0 zeroFrame 5).inputAt 0).rst = true ∧
    ((bench .validating 0 39 #v[0x32, 0, 0x18, 5, 0x4F] 1).inputAt 0).rst = false ∧
    ChecksumMatches (bench .validating 0 39 #v[0x32, 0, 0x18, 5, 0x4F] 1).frame ∧
    ¬ ((bench .bitLow 5 9 zeroFrame 2).st = .validating ∧ ChecksumMatches (bench .bitLow 5 9 zeroFrame 2).frame) :=
  ⟨by decide, by decide, witness_ValidateCommitsOrFails.1, fun h => by cases h.1⟩

/-- A reset, a START, the end of a data pulse at and below the threshold, and a step that is none of them. -/
theorem witness_FrameHasThreeWriters :
    ((bench .bitHigh 1 0 zeroFrame 5).inputAt 0).rst = true ∧ ReadBegins (bench .done 0 39 zeroFrame 3) ∧
    ((bench .bitHigh 40 39 zeroFrame 0).inputAt 0).lineIn = .low ∧ (bench .bitHigh 40 39 zeroFrame 0).cnt.toNat ≤ 40 ∧
    ((bench .bitHigh 40 39 zeroFrame 1).inputAt 0).lineIn ≠ .low ∧ ¬ ReadBegins (bench .bitHigh 40 39 zeroFrame 1) :=
  ⟨by decide, ⟨rfl, rfl, rfl⟩, by decide, by decide, by decide, fun h => by cases h.1⟩

theorem witness_LastReadingStands :
    runTicks 1 (bench .bitLow 5 9 zeroFrame 0) = .next (bench .bitLow 5 9 zeroFrame 0).countUp.consumeInput ∧
    NoReset (bench .bitLow 5 9 zeroFrame 0) 1 ∧
    ∀ j < 1, ∀ u, runTicks j (bench .bitLow 5 9 zeroFrame 0) = .next u → u.st ≠ .validating := by
  refine ⟨rfl, noReset_of_inputs (by decide) (by decide), fun j hj u hu => ?_⟩
  obtain rfl : j = 0 := by omega
  cases hu; decide

/-- Both failures: a timeout at the bound, and a mismatch. -/
theorem witness_FailureEntryIsPrecise :
    step (bench .bitHigh 70 17 #v[0x2c, 0, 0, 0, 0] 1) =
      .next ((bench .bitHigh 70 17 #v[0x2c, 0, 0, 0, 0] 1).raise .timeout).consumeInput ∧
    step (bench .validating 0 39 #v[0x32, 0, 0x18, 5, 0x50] 1) =
      .next ((bench .validating 0 39 #v[0x32, 0, 0x18, 5, 0x50] 1).raise .checksumMismatch).consumeInput := ⟨rfl, rfl⟩

/-- In a failure state: a reset, a START, and neither. -/
theorem witness_NothingRunsAfterAFailure :
    (∃ t, step (bench .failTimeout 70 17 zeroFrame 5) = .next t) ∧
    (∃ t, step (bench .failTimeout 70 17 zeroFrame 3) = .next t) ∧
    (∃ t, step (bench .failChecksum 0 39 zeroFrame 0) = .next t) ∧
    ((bench .failTimeout 70 17 zeroFrame 5).inputAt 0).rst = true ∧
    ((bench .failTimeout 70 17 zeroFrame 3).inputAt 0).start = true ∧
    ((bench .failChecksum 0 39 zeroFrame 0).inputAt 0).start = false :=
  ⟨⟨_, rfl⟩, ⟨_, rfl⟩, ⟨_, rfl⟩, by decide, by decide, by decide⟩

theorem witness_ReservedCodesRecover :
    NoReset (queued (.reserved 1) (lineTicks .high 1)) 1 ∧ (queued (.reserved 1) (lineTicks .high 1)).st = .reserved 1 :=
  ⟨queued_noReset _ (fun _ => lineTicks_rst) (by simp), rfl⟩

/-- The three invariants hold of a state in the middle of a read, which steps on. -/
theorem witness_InvariantsKept :
    Safe { State.reset with st := .bitHigh, cnt := 70, n := 39 } ∧
    ∃ t, step { State.reset with st := .bitHigh, cnt := 70, n := 39, inputs := [InputWord.ofBits 0] } = .next t := by
  refine ⟨⟨by unfold RegisterBounds; decide, ⟨rfl, fun _ => ⟨rfl, rfl, rfl, rfl, rfl, rfl⟩, rfl, by decide, ?_⟩, ?_⟩, _, rfl⟩
  · intro h; cases h
  · unfold ReadProgress; decide

/-- A response with the widths of the source's own scenario (W3): separators of 50 and pulses of 28 or 70. -/
theorem witness_WellFormedResponseIsDecoded :
    ∃ (s : State) (l h : Nat → Nat), ReadBegins s ∧ AcceptedLengths 50 80 l h ∧ LineAnswers s 20031 50 80 l h ∧
      NoReset s (20034 + slotStart 50 80 l h 40) := by
  let h : Nat → Nat := fun i => if i % 8 = 2 then 70 else 28
  have len := length_slotsTicks 50 80 (fun _ => 50) h 40
  refine ⟨started (lineTicks .low 20030 ++ responseTicks 50 80 (fun _ => 50) h), fun _ => 50, h, started_begins _,
    ⟨by omega, by omega, by omega, by omega, fun i _ => ?_⟩, ?_, ?_⟩
  · simp only [h]; split <;> omega
  · exact lineAnswers_of_inputs (pre := { rst := false, start := true, lineIn := .high } :: lineTicks .low 20030) rfl
      (by simp)
  · refine started_noReset (fun i hi => ?_) (by simp [responseTicks]; omega)
    rcases List.mem_append.1 hi with hi | hi
    · exact lineTicks_rst hi
    · exact rst_of_mem_responseTicks hi

/-- The longest read (V-HZ-3): every pulse at its bound. -/
theorem witness_EveryReadEnds :
    ∃ s : State, ReadBegins s ∧ NoReset s 25004 ∧ LineAnswers s 20031 83 87 (fun _ => 50) (fun _ => 70) := by
  have len := length_slotsTicks 83 87 (fun _ => 50) (fun _ => 70) 40
  have d : slotStart 83 87 (fun _ => 50) (fun _ => 70) 40 = 4970 := by decide
  refine ⟨started (lineTicks .low 20030 ++ responseTicks 83 87 (fun _ => 50) fun _ => 70), started_begins _, ?_, ?_⟩
  · refine started_noReset (fun i hi => ?_) (by simp [responseTicks]; omega)
    rcases List.mem_append.1 hi with hi | hi
    · exact lineTicks_rst hi
    · exact rst_of_mem_responseTicks hi
  · exact lineAnswers_of_inputs (pre := { rst := false, start := true, lineIn := .high } :: lineTicks .low 20030) rfl
      (by simp)

/-- The line silent at either level (programs P4 and P8): 88 samples high for the one clause, 84 low for the other. -/
theorem witness_SilentLineTimesOut (L : Level) (k : Nat) :
    ∃ s : State, ReadBegins s ∧ NoReset s (20031 + k) ∧ LineHolds s 20031 k L := by
  refine ⟨started (lineTicks .low 20030 ++ (lineTicks L k ++ [])), started_begins _, ?_, ?_⟩
  · refine started_noReset (fun i hi => ?_) (by simp; omega)
    simp only [List.mem_append, List.not_mem_nil, or_false] at hi
    rcases hi with hi | hi
    · exact lineTicks_rst hi
    · exact lineTicks_rst hi
  · exact lineHolds_of_inputs (pre := { rst := false, start := true, lineIn := .high } :: lineTicks .low 20030)
      (post := []) rfl (by simp)

/-- The three late responses at boundary lengths: a high of 87 then 50 low and 71 high, one of 87 then 51 low, one of 88. -/
theorem witness_LateResponseTimesOut :
    (∃ s : State, s.st = .awaitAck1 ∧ s.cnt = 0 ∧ s.n = 0 ∧ NoReset s (87 + 121) ∧ LineHolds s 0 87 .high ∧
      LineHolds s 87 50 .low ∧ LineHolds s (87 + 50) 71 .high) ∧
    (∃ s : State, s.st = .awaitAck1 ∧ s.cnt = 0 ∧ s.n = 0 ∧ NoReset s (87 + 51) ∧ LineHolds s 0 87 .high ∧
      LineHolds s 87 51 .low) ∧
    ∃ s : State, s.st = .awaitAck1 ∧ s.cnt = 0 ∧ s.n = 0 ∧ NoReset s 88 ∧ LineHolds s 0 88 .high := by
  have rst {l : List (Level × Nat)} : ∀ i ∈ l.flatMap (fun p => lineTicks p.1 p.2), i.rst = false := by
    intro i hi
    obtain ⟨p, -, hp⟩ := List.mem_flatMap.1 hi
    exact lineTicks_rst hp
  refine ⟨⟨queued .awaitAck1 ([(.high, 87), (.low, 50), (.high, 71)].flatMap fun p => lineTicks p.1 p.2), rfl, rfl, rfl,
      queued_noReset _ rst (by simp), ?_, ?_, ?_⟩,
    ⟨queued .awaitAck1 ([(.high, 87), (.low, 51)].flatMap fun p => lineTicks p.1 p.2), rfl, rfl, rfl,
      queued_noReset _ rst (by simp), ?_, ?_⟩,
    queued .awaitAck1 ([(.high, 88)].flatMap fun p => lineTicks p.1 p.2), rfl, rfl, rfl,
      queued_noReset _ rst (by simp), ?_⟩
  · exact lineHolds_of_inputs (pre := []) (post := lineTicks .low 50 ++ lineTicks .high 71) (by simp [queued]) rfl
  · exact lineHolds_of_inputs (pre := lineTicks .high 87) (post := lineTicks .high 71) (by simp [queued]) (by simp)
  · exact lineHolds_of_inputs (pre := lineTicks .high 87 ++ lineTicks .low 50) (post := []) (by simp [queued]) (by simp)
  · exact lineHolds_of_inputs (pre := []) (post := lineTicks .low 51) (by simp [queued]) rfl
  · exact lineHolds_of_inputs (pre := lineTicks .high 87) (post := []) (by simp [queued]) (by simp)
  · exact lineHolds_of_inputs (pre := []) (post := []) (by simp [queued]) rfl

end Sys2Proof.Tests
end

section
/-! Decoding undoes encoding on well-formed instructions (30_encoding.md R46), and with it O9: the step of a tick whose
control word encodes an instruction. -/

namespace Sys2Proof

/-- In a waiting state without a reset, `start` chooses between START and WAIT (R47). -/
theorem decode_of_waiting {st : St} (h : st.isWaiting = true) (start : Bool) :
    decode (controlWord false start st) = if start then .start st else .wait st := by
  rw [decode_of_no_rst]
  cases st with
  | idle | done | failTimeout | failChecksum => rfl
  | _ => simp [St.isWaiting] at h

/-- In a reserved state without a reset, the operation is RSV (R47, R50). -/
theorem decode_of_reserved {st : St} (h : st.isReserved = true) (start : Bool) :
    decode (controlWord false start st) = .rsv start st := by
  rw [decode_of_no_rst]
  cases st with
  | reserved k => rfl
  | _ => simp [St.isReserved] at h

/-- Each row's encoding is by computation the control word of a state that the row admits, so what that control word
selects is the instruction itself. -/
theorem decode_encode {i : Instr} (hi : i.WellFormed = true) : decode (encode i) = i := by
  cases i with
  | reset start st => exact decode_of_rst start st
  | wait st        => exact decode_of_waiting hi false
  | start st       => exact decode_of_waiting hi true
  | reqLow start   => exact decode_of_no_rst start .reqLow
  | reqHigh start  => exact decode_of_no_rst start .reqHigh
  | ack1 start     => exact decode_of_no_rst start .awaitAck1
  | ack2 start     => exact decode_of_no_rst start .awaitAck2
  | bitLow start   => exact decode_of_no_rst start .bitLow
  | bitHigh start  => exact decode_of_no_rst start .bitHigh
  | assemble start => exact decode_of_no_rst start .assembling
  | validate start => exact decode_of_no_rst start .validating
  | rsv start st   => exact decode_of_reserved hi start

end Sys2Proof

namespace Sys2Proof.Machine

/-- Settles O9: the control word decodes to the instruction it encodes, and the step runs that instruction. -/
theorem stepRunsTheDecodedInstruction : Obligations.StepRunsTheDecodedInstruction := by
  intro s t i hi hc he
  have hd : decode s.controlWord = i := by rw [hc, decode_encode hi]
  exact step_of_exec hd he

end Sys2Proof.Machine
end

section
/-! What a tick does to the registers, as one relation with a case for each way an operation of the map can go: the two
windows (R61, R62) and the four phases (R65) are read from tables, so that an invariant treats each kind once. -/

namespace Sys2Proof.Machine

/-- The driven windows of the start request: the ticks of each and the state after it (R61, R62). -/
def window : St → Option (Nat × St)
  | .reqLow  => some (tStartLow, .reqHigh)
  | .reqHigh => some (tStartHigh, .awaitAck1)
  | _        => none

/-- The state that follows each phase but BIT_HIGH, whose end places a bit (R68 to R71). -/
def phaseSuccessor : St → Option St
  | .awaitAck1 => some .awaitAck2
  | .awaitAck2 => some .bitLow
  | .bitLow    => some .bitHigh
  | _          => none

/-- What the operation of a tick makes of the registers of `s`, with the guard of each case (R46, R47). -/
inductive TickEffect (s : State) : State → Prop where
  | reset (hr : (s.inputAt 0).rst = true) : TickEffect s s.resetRegisters
  | wait (hr : (s.inputAt 0).rst = false) (hstart : (s.inputAt 0).start = false) (hw : s.st.isWaiting = true) :
      TickEffect s s
  | start (hb : ReadBegins s) : TickEffect s s.beginRead
  | windowCounts {T : Nat} {S : St} (hr : (s.inputAt 0).rst = false) (hw : window s.st = some (T, S))
      (hc : s.cnt.toNat ≠ T - 1) : TickEffect s s.countUp
  | windowEnds {T : Nat} {S : St} (hr : (s.inputAt 0).rst = false) (hw : window s.st = some (T, S))
      (hc : s.cnt.toNat = T - 1) : TickEffect s (s.enter S 0)
  | phaseCounts {L : Level} {B : Nat} (hr : (s.inputAt 0).rst = false) (hp : phaseOperands s.st = some (L, B))
      (hl : s.lineIn = L) (hc : s.cnt.toNat ≠ B) : TickEffect s s.countUp
  | phaseTimesOut {L : Level} {B : Nat} (hr : (s.inputAt 0).rst = false) (hp : phaseOperands s.st = some (L, B))
      (hl : s.lineIn = L) (hc : s.cnt.toNat = B) : TickEffect s (s.raise .timeout)
  | phaseEnds {L : Level} {B : Nat} {S : St} (hr : (s.inputAt 0).rst = false)
      (hp : phaseOperands s.st = some (L, B)) (hS : phaseSuccessor s.st = some S) (hl : s.lineIn ≠ L) :
      TickEffect s (s.enter S 1)
  | bitHighEnds (hr : (s.inputAt 0).rst = false) (hst : s.st = .bitHigh) (hl : s.lineIn ≠ .high) :
      TickEffect s (endBitHigh s.cnt s)
  | assemble (hr : (s.inputAt 0).rst = false) (hst : s.st = .assembling) : TickEffect s { s with st := .validating }
  | commit (hr : (s.inputAt 0).rst = false) (hst : s.st = .validating) (hf : ChecksumMatches s.frame) :
      TickEffect s s.commit
  | mismatch (hr : (s.inputAt 0).rst = false) (hst : s.st = .validating) (hf : ¬ ChecksumMatches s.frame) :
      TickEffect s (s.raise .checksumMismatch)
  | recover (hr : (s.inputAt 0).rst = false) (hst : s.st.isReserved = true) : TickEffect s { s with st := .idle }

theorem window_eq_some {S S' : St} {T : Nat} : window S = some (T, S') ↔
    (S = .reqLow ∧ T = tStartLow ∧ S' = .reqHigh) ∨ (S = .reqHigh ∧ T = tStartHigh ∧ S' = .awaitAck1) := by
  cases S <;> simp [window, eq_comm]

theorem phaseOperands_eq_some {S : St} {L : Level} {B : Nat} : phaseOperands S = some (L, B) ↔
    (S = .awaitAck1 ∧ L = .low ∧ B = bAckLow) ∨ (S = .awaitAck2 ∧ L = .high ∧ B = bAckHigh) ∨
    (S = .bitLow ∧ L = .low ∧ B = bBitLow) ∨ (S = .bitHigh ∧ L = .high ∧ B = bBitHigh) := by
  cases S <;> simp [phaseOperands, eq_comm]

theorem phaseSuccessor_eq_some {S S' : St} : phaseSuccessor S = some S' ↔
    (S = .awaitAck1 ∧ S' = .awaitAck2) ∨ (S = .awaitAck2 ∧ S' = .bitLow) ∨ (S = .bitLow ∧ S' = .bitHigh) := by
  cases S <;> simp [phaseSuccessor, eq_comm]

variable {s t u : State}

theorem tickEffect_holdWindow {T : Nat} {S : St} (hr : (s.inputAt 0).rst = false)
    (hw : window s.st = some (T, S)) : TickEffect s (s.holdWindow T S) := by
  obtain ⟨hc, e⟩ | ⟨hc, e⟩ := s.holdWindow_cases T S
  · exact e ▸ .windowEnds hr hw hc
  · exact e ▸ .windowCounts hr hw hc

/-- A phase's tick has one of the effects, given the effect of its end. -/
theorem tickEffect_measure {L : Level} {B : Nat} {endPhase : Count → State → State}
    (hr : (s.inputAt 0).rst = false) (hp : phaseOperands s.st = some (L, B))
    (hend : s.lineIn ≠ L → TickEffect s (endPhase s.cnt s)) : TickEffect s (s.measure L B endPhase) := by
  obtain ⟨hl, hc, e⟩ | ⟨hl, hc, e⟩ | ⟨hl, e⟩ := s.measure_cases L B endPhase
  · exact e ▸ .phaseTimesOut hr hp hl hc
  · exact e ▸ .phaseCounts hr hp hl hc
  · exact e ▸ hend hl

theorem tickEffect_measure_enter {L : Level} {B : Nat} {S : St} (hr : (s.inputAt 0).rst = false)
    (hp : phaseOperands s.st = some (L, B)) (hS : phaseSuccessor s.st = some S) :
    TickEffect s (s.measure L B fun _ s => s.enter S 1) :=
  tickEffect_measure hr hp (.phaseEnds hr hp hS)

theorem tickEffect_validate (hr : (s.inputAt 0).rst = false) (hst : s.st = .validating) :
    TickEffect s (if frameSum s.frame = s.frame[4] then s.commit else s.raise .checksumMismatch) := by
  split
  case isTrue hsum => exact .commit hr hst ((frameSum_eq_iff _).1 hsum)
  case isFalse hsum => exact .mismatch hr hst (mt (frameSum_eq_iff _).2 hsum)

/-- Every step has one of the effects on the registers, and then consumes the tick's input. -/
theorem tickEffect_of_step (h : step s = .next t) : ∃ u, TickEffect s u ∧ t = u.consumeInput := by
  obtain ⟨hr, ht⟩ | ⟨hr, hop⟩ := step_cases h
  · exact ⟨_, .reset hr, ht⟩
  obtain ⟨hw, hstart, ht⟩ | ⟨hb, ht⟩ | ⟨hst, ht⟩ | ⟨hst, ht⟩ | ⟨hst, ht⟩ | ⟨hst, ht⟩ | ⟨hst, ht⟩ |
    ⟨hst, ht⟩ | ⟨hst, ht⟩ | ⟨hst, ht⟩ | ⟨⟨k, hst⟩, ht⟩ := hop
  · exact ⟨_, .wait hr hstart hw, ht⟩
  · exact ⟨_, .start hb, ht⟩
  · exact ⟨_, tickEffect_holdWindow hr (by rw [hst, window]), ht⟩
  · exact ⟨_, tickEffect_holdWindow hr (by rw [hst, window]), ht⟩
  · exact ⟨_, tickEffect_measure_enter hr (by rw [hst, phaseOperands]) (by rw [hst, phaseSuccessor]), ht⟩
  · exact ⟨_, tickEffect_measure_enter hr (by rw [hst, phaseOperands]) (by rw [hst, phaseSuccessor]), ht⟩
  · exact ⟨_, tickEffect_measure_enter hr (by rw [hst, phaseOperands]) (by rw [hst, phaseSuccessor]), ht⟩
  · exact ⟨_, tickEffect_measure hr (by rw [hst, phaseOperands]) (.bitHighEnds hr hst), ht⟩
  · exact ⟨_, .assemble hr hst, ht⟩
  · exact ⟨_, tickEffect_validate hr hst, ht⟩
  · exact ⟨_, .recover hr (by rw [hst, St.isReserved]), ht⟩

end Sys2Proof.Machine
end

section
/-! The register bounds of R28 are kept by every step (O43). -/

namespace Sys2Proof.Machine

variable {s t u : State}

/-- The first count of a window or phase: every phase but ACK1 starts with its first sample counted (R67). -/
def firstCount : St → Nat
  | .awaitAck2 | .bitLow | .bitHigh => 1
  | _ => 0

/-- The last count of a window or phase (R61, R62, R65). -/
def lastCount (S : St) : Option Nat :=
  ((window S).map fun w => w.1 - 1) <|> ((phaseOperands S).map fun p => p.2)

/-- The bounds on `cnt` are one condition over the table of first and last counts. -/
theorem registerBounds_iff : RegisterBounds s ↔
    s.st.isReserved = false ∧ s.n.toNat ≤ 39 ∧
      ∀ B ∈ lastCount s.st, firstCount s.st ≤ s.cnt.toNat ∧ s.cnt.toNat ≤ B := by
  unfold RegisterBounds
  cases s.st <;>
    simp [lastCount, firstCount, window, phaseOperands, tStartLow, tStartHigh, bAckLow, bAckHigh, bBitLow, bBitHigh]

theorem lastCount_of_window {S S' : St} {T : Nat} (h : window S = some (T, S')) : lastCount S = some (T - 1) := by
  simp [lastCount, h]

theorem lastCount_of_phase {S : St} {L : Level} {B : Nat} (h : phaseOperands S = some (L, B)) :
    lastCount S = some B := by
  obtain ⟨rfl, -, rfl⟩ | ⟨rfl, -, rfl⟩ | ⟨rfl, -, rfl⟩ | ⟨rfl, -, rfl⟩ := phaseOperands_eq_some.1 h
  all_goals rfl

/-- No window or phase starts past its last count, and none comes near the register's limit (R13). -/
theorem lastCount_range {S : St} {B : Nat} (h : B ∈ lastCount S) : firstCount S ≤ B ∧ B < 32767 := by
  revert B
  cases S <;> simp [lastCount, window, phaseOperands, firstCount, tStartLow, tStartHigh, bAckLow, bAckHigh, bBitLow,
    bBitHigh]

theorem window_target {S S' : St} {T : Nat} (h : window S = some (T, S')) :
    S'.isReserved = false ∧ firstCount S' = 0 := by
  obtain ⟨-, -, rfl⟩ | ⟨-, -, rfl⟩ := window_eq_some.1 h
  all_goals exact ⟨rfl, rfl⟩

theorem phaseSuccessor_target {S S' : St} (h : phaseSuccessor S = some S') :
    S'.isReserved = false ∧ firstCount S' = 1 := by
  obtain ⟨-, rfl⟩ | ⟨-, rfl⟩ | ⟨-, rfl⟩ := phaseSuccessor_eq_some.1 h
  all_goals exact ⟨rfl, rfl⟩

/-- Below slot 39, the next slot is one further on (R17). -/
theorem bitIndex_succ_toNat {n : BitIndex} (h : n.toNat < 39) : (n + 1).toNat = n.toNat + 1 := by
  simp [BitVec.toNat_add]; omega

/-- The entry of a window or phase with its first count. -/
theorem RegisterBounds.enter {S : St} {c : Count} (h : RegisterBounds s) (hS : S.isReserved = false)
    (hc : c.toNat = firstCount S) : RegisterBounds (s.enter S c) := by
  obtain ⟨-, hn, -⟩ := registerBounds_iff.1 h
  refine registerBounds_iff.2 ⟨hS, hn, fun B hB => ?_⟩
  rw [State.enter_cnt, hc]
  exact ⟨le_rfl, (lastCount_range hB).1⟩

/-- A count below the last one. -/
theorem RegisterBounds.countUp {B : Nat} (h : RegisterBounds s) (hB : lastCount s.st = some B)
    (hc : s.cnt.toNat ≠ B) : RegisterBounds s.countUp := by
  obtain ⟨hr, hn, hb⟩ := registerBounds_iff.1 h
  refine registerBounds_iff.2 ⟨hr, hn, fun B' hB' => ?_⟩
  obtain rfl : B = B' := Option.some.inj (hB.symm.trans hB')
  have hfirst := hb B hB
  have hlimit := (lastCount_range hB).2
  rw [State.countUp_st, State.countUp_cnt, count_succ_toNat (by omega)]
  omega

/-- Where no count runs, the bounds say only that the code is no reserved one and that `n` is at most 39. -/
theorem registerBounds_of_no_count (hst : u.st.isReserved = false) (hc : lastCount u.st = none)
    (hn : u.n.toNat ≤ 39) : RegisterBounds u :=
  registerBounds_iff.2 ⟨hst, hn, by simp [hc]⟩

/-- After a data pulse: ASSEMBLING once slot 39 is placed, else the next slot's BIT_LOW with its first sample
already counted (R67, R75). -/
theorem RegisterBounds.endBitHigh (h : RegisterBounds s) : RegisterBounds (endBitHigh s.cnt s) := by
  obtain ⟨-, hn, -⟩ := registerBounds_iff.1 h
  obtain ⟨-, -, hlast, hnext⟩ := endBitHigh_frame s
  by_cases e : s.n.toNat = 39
  · obtain ⟨hst, -, hn'⟩ := hlast e
    exact registerBounds_of_no_count (by rw [hst]; rfl) (by rw [hst]; rfl) (by rw [hn']; exact hn)
  · obtain ⟨hst, hc, hn'⟩ := hnext e
    refine registerBounds_iff.2 ⟨by rw [hst]; rfl, ?_, ?_⟩
    · rw [hn', bitIndex_succ_toNat (by omega)]; omega
    · rw [hst, hc]; decide

theorem TickEffect.keeps_registerBounds (h : RegisterBounds s) (hu : TickEffect s u) : RegisterBounds u := by
  obtain ⟨hres, hn, -⟩ := registerBounds_iff.1 h
  cases hu with
  | reset => exact registerBounds_of_no_count rfl rfl (by simp)
  | wait => exact h
  | start => exact registerBounds_iff.2 ⟨rfl, by simp, by simp [firstCount]⟩
  | windowCounts _ hw hc => exact h.countUp (lastCount_of_window hw) hc
  | windowEnds _ hw =>
    obtain ⟨hS, hfirst⟩ := window_target hw
    exact h.enter hS hfirst.symm
  | phaseCounts _ hp _ hc => exact h.countUp (lastCount_of_phase hp) hc
  | phaseTimesOut => exact registerBounds_of_no_count rfl rfl hn
  | phaseEnds _ _ hS =>
    obtain ⟨hres', hfirst⟩ := phaseSuccessor_target hS
    exact h.enter hres' hfirst.symm
  | bitHighEnds => exact h.endBitHigh
  | assemble => exact registerBounds_of_no_count rfl rfl hn
  | commit => exact registerBounds_of_no_count rfl rfl hn
  | mismatch => exact registerBounds_of_no_count rfl rfl hn
  | recover _ hst => simp [hst] at hres

theorem registerBounds_consumeInput : RegisterBounds u.consumeInput ↔ RegisterBounds u := Iff.rfl

/-- Settles O43: each effect of a tick keeps the bounds, and consuming the input touches no register. -/
theorem registerBoundsKept : Obligations.RegisterBoundsKept := by
  intro s t h hstep
  obtain ⟨u, hu, rfl⟩ := tickEffect_of_step hstep
  exact registerBounds_consumeInput.2 (hu.keeps_registerBounds h)

end Sys2Proof.Machine
end

section
/-! What the Reading Store holds is kept by every step (O44; R16, R45, R58, R80): the busy states and the failure states
leave the store alone and claim nothing of it, so only a commit and a reset have anything to show. -/

namespace Sys2Proof.Machine

variable {s t u : State}

/-! ## The windows and the phases lie in the busy states -/

theorem isBusy_of_window {S S' : St} {T : Nat} (h : window S = some (T, S')) :
    S.isBusy = true ∧ S'.isBusy = true := by
  obtain ⟨rfl, -, rfl⟩ | ⟨rfl, -, rfl⟩ := window_eq_some.1 h
  all_goals exact ⟨rfl, rfl⟩

theorem isBusy_of_phase {S : St} {L : Level} {B : Nat} (h : phaseOperands S = some (L, B)) : S.isBusy = true := by
  obtain ⟨rfl, -, -⟩ | ⟨rfl, -, -⟩ | ⟨rfl, -, -⟩ | ⟨rfl, -, -⟩ := phaseOperands_eq_some.1 h
  all_goals rfl

theorem isBusy_of_phaseSuccessor {S S' : St} (h : phaseSuccessor S = some S') : S'.isBusy = true := by
  obtain ⟨-, rfl⟩ | ⟨-, rfl⟩ | ⟨-, rfl⟩ := phaseSuccessor_eq_some.1 h
  all_goals rfl

theorem endBitHigh_isBusy (s : State) : (endBitHigh s.cnt s).st.isBusy = true := by
  obtain ⟨-, -, hlast, hnext⟩ := endBitHigh_frame s
  by_cases e : s.n.toNat = 39
  · rw [(hlast e).1]; rfl
  · rw [(hnext e).1]; rfl

/-! ## The operations that leave the store alone (R34) -/

theorem sameStore_beginRead (s : State) : SameStore s s.beginRead := ⟨rfl, rfl, rfl, rfl, rfl, rfl⟩

theorem sameStore_countUp (s : State) : SameStore s s.countUp := ⟨rfl, rfl, rfl, rfl, rfl, rfl⟩

theorem sameStore_enter (s : State) (S : St) (c : Count) : SameStore s (s.enter S c) :=
  ⟨rfl, rfl, rfl, rfl, rfl, rfl⟩

theorem sameStore_raise (s : State) (k : ErrorKind) : SameStore s (s.raise k) := ⟨rfl, rfl, rfl, rfl, rfl, rfl⟩

theorem sameStore_assemble (s : State) : SameStore s { s with st := .validating } := ⟨rfl, rfl, rfl, rfl, rfl, rfl⟩

/-! ## The invariant -/

/-- A stored reading stays one while the store stands, in any state that claims nothing of it. -/
theorem StoredReading.of_sameStore (h : StoredReading s) (hs : SameStore s u) (hres : u.st.isReserved = false)
    (hidle : u.st ≠ .idle) (hdone : u.st ≠ .done) : StoredReading u := by
  obtain ⟨-, hclear, hsum, -, -⟩ := h
  obtain ⟨eHi, eHf, eTi, eTf, eCk, eValid⟩ := hs
  refine ⟨hres, ?_, ?_, fun hu => absurd hu hidle, fun hu => absurd hu hdone⟩
  · simpa only [StoreCleared, eHi, eHf, eTi, eTf, eCk, eValid] using hclear
  · simpa only [eHi, eHf, eTi, eTf, eCk] using hsum

theorem StoredReading.of_busy (h : StoredReading s) (hs : SameStore s u) (hbusy : u.st.isBusy = true) :
    StoredReading u := by
  refine h.of_sameStore hs ?_ ?_ ?_
  · cases hu : u.st with
    | reserved k => simp [hu, St.isBusy] at hbusy
    | _ => rfl
  · intro hu; simp [hu, St.isBusy] at hbusy
  · intro hu; simp [hu, St.isBusy] at hbusy

theorem StoredReading.raise (h : StoredReading s) (k : ErrorKind) : StoredReading (s.raise k) := by
  cases k with
  | timeout => exact h.of_sameStore (sameStore_raise s _) rfl nofun nofun
  | checksumMismatch => exact h.of_sameStore (sameStore_raise s _) rfl nofun nofun

/-- The checksum test that admits a commit is the identity of R58 on the bytes it stores (R79, R80). -/
theorem storedReading_commit (hf : ChecksumMatches s.frame) : StoredReading s.commit :=
  ⟨rfl, nofun, hf.symm, nofun, fun _ => ⟨rfl, rfl, rfl, rfl, rfl, rfl⟩⟩

theorem storedReading_resetRegisters (s : State) : StoredReading s.resetRegisters :=
  ⟨rfl, fun _ => ⟨rfl, rfl, rfl, rfl, rfl, rfl⟩, rfl, fun _ => rfl, nofun⟩

theorem TickEffect.keeps_storedReading (h : StoredReading s) (hu : TickEffect s u) : StoredReading u := by
  cases hu with
  | reset => exact storedReading_resetRegisters s
  | wait => exact h
  | start => exact h.of_busy (sameStore_beginRead s) rfl
  | windowCounts _ hw => exact h.of_busy (sameStore_countUp s) (isBusy_of_window hw).1
  | windowEnds _ hw => exact h.of_busy (sameStore_enter s _ _) (isBusy_of_window hw).2
  | phaseCounts _ hp => exact h.of_busy (sameStore_countUp s) (isBusy_of_phase hp)
  | phaseTimesOut => exact h.raise _
  | phaseEnds _ _ hS => exact h.of_busy (sameStore_enter s _ _) (isBusy_of_phaseSuccessor hS)
  | bitHighEnds => exact h.of_busy (endBitHigh_frame s).1 (endBitHigh_isBusy s)
  | assemble => exact h.of_busy (sameStore_assemble s) rfl
  | commit _ _ hf => exact storedReading_commit hf
  | mismatch => exact h.raise _
  | recover _ hst => simp [h.1] at hst

theorem storedReading_consumeInput : StoredReading u.consumeInput ↔ StoredReading u := Iff.rfl

/-- Settles O44: each effect of a tick keeps the stored reading, and consuming the input touches no register. -/
theorem storedReadingKept : Obligations.StoredReadingKept := by
  intro s t h hstep
  obtain ⟨u, hu, rfl⟩ := tickEffect_of_step hstep
  exact storedReading_consumeInput.2 (hu.keeps_storedReading h)

end Sys2Proof.Machine
end

section
/-! How far a read has come is kept by every step (O45; R17, R36, R76): one lemma per part of a read says what suffices
there, and the ends of windows, phases and data pulses carry it from one part to the next. -/

namespace Sys2Proof.Machine

variable {s t u : State}

theorem streamBit_zeroFrame : ∀ i < 40, streamBit zeroFrame i = false := by decide

/-- Once slot 39 has ended, `n` stays at 39 (R17). -/
theorem readProgress_of_payloadEnded
    (hst : u.st = .assembling ∨ u.st = .validating ∨ u.st = .done ∨ u.st = .failChecksum) (hn : u.n.toNat = 39) :
    ReadProgress u := by
  refine ⟨?_, hn.le, ?_, ?_, fun _ => hn⟩
  all_goals obtain e | e | e | e := hst <;> simp [e, St.isReserved]

/-- Before the payload, `n` is 0 and the frame is zero (R36). -/
theorem readProgress_of_nothingRead
    (hst : u.st = .idle ∨ u.st = .reqLow ∨ u.st = .reqHigh ∨ u.st = .awaitAck1 ∨ u.st = .awaitAck2)
    (hn : u.n = 0) (hf : u.frame = zeroFrame) : ReadProgress u := by
  refine ⟨?_, by simp [hn], fun _ => ⟨hn, hf⟩, ?_, ?_⟩
  all_goals obtain e | e | e | e | e := hst <;> simp [e, St.isReserved]

theorem readProgress_of_payload (hst : u.st = .bitLow ∨ u.st = .bitHigh) (hn : u.n.toNat ≤ 39)
    (hf : ∀ i < 40, u.n.toNat ≤ i → streamBit u.frame i = false) : ReadProgress u := by
  refine ⟨?_, hn, ?_, fun _ => hf, ?_⟩
  all_goals obtain e | e := hst <;> simp [e, St.isReserved]

theorem readProgress_of_failTimeout (hst : u.st = .failTimeout) (hn : u.n.toNat ≤ 39) : ReadProgress u := by
  refine ⟨?_, hn, ?_, ?_, ?_⟩ <;> simp [hst, St.isReserved]

theorem readProgress_countUp : ReadProgress s.countUp ↔ ReadProgress s := Iff.rfl

theorem readProgress_consumeInput : ReadProgress u.consumeInput ↔ ReadProgress u := Iff.rfl

/-- After a data pulse, the slots from the next one on have still placed nothing (R75, R76). -/
theorem ReadProgress.endBitHigh (h : ReadProgress s) (hst : s.st = .bitHigh) :
    ReadProgress (endBitHigh s.cnt s) := by
  obtain ⟨-, hn, -, hpayload, -⟩ := h
  obtain ⟨-, -, hlast, hnext⟩ := endBitHigh_frame s
  by_cases e : s.n.toNat = 39
  · obtain ⟨hst', -, hn'⟩ := hlast e
    exact readProgress_of_payloadEnded (.inl hst') (by rw [hn', e])
  · obtain ⟨hst', -, hn'⟩ := hnext e
    have hsucc : (s.n + 1).toNat = s.n.toNat + 1 := bitIndex_succ_toNat (by omega)
    refine readProgress_of_payload (.inl hst') (by rw [hn']; omega) fun i hi hni => ?_
    have hni' : s.n.toNat < i := by rw [hn'] at hni; omega
    simp [endBitHigh_streamBit s hi, hpayload (.inr hst) i hi hni'.le, hni'.ne']

/-- The end of a driven window, where nothing has been read yet. -/
theorem ReadProgress.windowEnds {S : St} {T : Nat} (h : ReadProgress s) (hw : window s.st = some (T, S)) (c : Count) :
    ReadProgress (s.enter S c) := by
  obtain ⟨-, -, hzero, -, -⟩ := h
  obtain ⟨hst, -, rfl⟩ | ⟨hst, -, rfl⟩ := window_eq_some.1 hw
  all_goals
    obtain ⟨hn, hf⟩ := hzero (by simp [hst])
    exact readProgress_of_nothingRead (by simp) hn hf

/-- The end of a phase but BIT_HIGH; entering the payload, the zero frame has placed nothing from slot 0 on (R76). -/
theorem ReadProgress.phaseEnds {S : St} (h : ReadProgress s) (hS : phaseSuccessor s.st = some S) (c : Count) :
    ReadProgress (s.enter S c) := by
  obtain ⟨-, hn39, hzero, hpayload, -⟩ := h
  obtain ⟨hst, rfl⟩ | ⟨hst, rfl⟩ | ⟨hst, rfl⟩ := phaseSuccessor_eq_some.1 hS
  · obtain ⟨hn, hf⟩ := hzero (by simp [hst])
    exact readProgress_of_nothingRead (by simp) hn hf
  · obtain ⟨-, hf⟩ := hzero (by simp [hst])
    refine readProgress_of_payload (by simp) hn39 fun i hi _ => ?_
    rw [State.enter_frame, hf]
    exact streamBit_zeroFrame i hi
  · exact readProgress_of_payload (by simp) hn39 (hpayload (.inl hst))

theorem TickEffect.keeps_readProgress (h : ReadProgress s) (hu : TickEffect s u) : ReadProgress u := by
  have ⟨hres, hn, _, _, hended⟩ := h
  cases hu with
  | reset => exact readProgress_of_nothingRead (.inl rfl) rfl rfl
  | wait => exact h
  | start => exact readProgress_of_nothingRead (.inr (.inl rfl)) rfl rfl
  | windowCounts => exact readProgress_countUp.2 h
  | windowEnds _ hw => exact h.windowEnds hw _
  | phaseCounts => exact readProgress_countUp.2 h
  | phaseTimesOut => exact readProgress_of_failTimeout rfl hn
  | phaseEnds _ _ hS => exact h.phaseEnds hS _
  | bitHighEnds _ hst => exact h.endBitHigh hst
  | assemble _ hst => exact readProgress_of_payloadEnded (by simp) (hended (by simp [hst]))
  | commit _ hst => exact readProgress_of_payloadEnded (by simp) (hended (by simp [hst]))
  | mismatch _ hst => exact readProgress_of_payloadEnded (by simp [ErrorKind.failState]) (hended (by simp [hst]))
  | recover _ hst => simp [hres] at hst

/-- Settles O45: each effect of a tick keeps the read's progress, and consuming the input touches no register. -/
theorem readProgressKept : Obligations.ReadProgressKept := by
  intro s t h hstep
  obtain ⟨u, hu, rfl⟩ := tickEffect_of_step hstep
  exact readProgress_consumeInput.2 (hu.keeps_readProgress h)

end Sys2Proof.Machine
end

section
/-! The outputs as functions of the registers (O12, O19, O20, O21; 10_state.md section 2), and the reset state (O46). -/

namespace Sys2Proof.Machine

variable {s : State}

/-! ## The reading outputs -/

/-- Ten times a byte plus a byte is at most 2805, so 12 bits hold it without wrap (R24). -/
theorem tenths_toNat (a b : Byte) : (tenths a b).toNat = a.toNat * 10 + b.toNat := by
  have ha := a.isLt
  have hb := b.isLt
  simp only [tenths, BitVec.toNat_add, BitVec.toNat_mul, BitVec.toNat_setWidth, BitVec.ofNat_eq_ofNat,
    BitVec.toNat_ofNat]
  omega

theorem tenths_le (a b : Byte) : (tenths a b).toNat ≤ 2805 := by
  have ha := a.isLt
  have hb := b.isLt
  rw [tenths_toNat]
  omega

@[simp] theorem tenths_zero : tenths 0#8 0#8 = 0#12 := rfl

/-- Settles O21: the bytes are the store's own, and the tenths are exact. -/
theorem readingOutputs : Obligations.ReadingOutputs := fun s =>
  ⟨rfl, rfl, rfl, rfl, rfl, rfl, tenths_toNat s.storeHi s.storeHf, tenths_toNat s.storeTi s.storeTf,
    tenths_le s.storeHi s.storeHf, tenths_le s.storeTi s.storeTf⟩

/-! ## The outputs of the state machine -/

theorem lineOe_iff : s.lineOe = true ↔ s.st = .reqLow ∨ s.st = .reqHigh := by
  unfold State.lineOe
  cases s.st <;> simp

theorem lineOut_high_iff : s.lineOut = .high ↔ s.st = .reqHigh := by
  unfold State.lineOut
  cases s.st <;> simp

/-- Settles O19: the line is driven in the two request states alone, and high in REQ_HIGH alone. -/
theorem lineOutputs : Obligations.LineOutputs := by
  intro s
  refine ⟨fun h => ⟨?_, ?_⟩, fun h => ⟨?_, ?_⟩, fun hl hh => ⟨?_, ?_⟩⟩
  · exact lineOe_iff.2 (.inl h)
  · rw [← Level.ne_high, ne_eq, lineOut_high_iff, h]; decide
  · exact lineOe_iff.2 (.inr h)
  · exact lineOut_high_iff.2 h
  · rw [← Bool.not_eq_true, lineOe_iff]; simp [hl, hh]
  · rw [← Level.ne_high, ne_eq, lineOut_high_iff]; exact hh

/-- `busy` is the class of the state (R21, R44). -/
theorem busy_eq (s : State) : s.busy = s.st.isBusy := by
  unfold State.busy
  cases s.st <;> rfl

theorem status_code_of_busy (h : s.st.isBusy = true) : s.status.code = 1 := by
  unfold State.status
  cases hst : s.st with
  | idle | done | failTimeout | failChecksum | reserved k => simp [hst, St.isBusy] at h
  | _ => rfl

theorem Status.code_le (x : Status) : x.code.toNat ≤ 4 := by cases x <;> decide

/-- Settles O20: `busy` is the class of the state, and each state has its one status. -/
theorem busyAndStatus : Obligations.BusyAndStatus := by
  intro s
  refine ⟨by rw [busy_eq], ?idle, status_code_of_busy, ?done, ?timeout, ?checksum, ?reserved, s.status.code_le⟩
  case reserved => intro k h; simp [State.status, h, Status.code]
  all_goals intro h; simp [State.status, h, Status.code]

/-! ## The reset state -/

theorem registersReset_reset : RegistersReset State.reset := ⟨rfl, rfl, rfl, rfl, rfl, rfl, rfl, rfl, rfl, rfl⟩

/-- Settles O12: the outputs read only `st`, the store and `valid`, which the reset values fix. -/
theorem resetStateIsTheTable : Obligations.ResetStateIsTheTable := by
  refine ⟨registersReset_reset, fun s hs => ?_⟩
  obtain ⟨hst, -, -, -, hHi, hHf, hTi, hTf, hCk, hValid⟩ := hs
  simp [State.outputs, State.lineOe, State.lineOut, State.busy, State.status, Status.code, State.lastChecksumByte,
    State.humX10, State.tempX10, State.validOut, hst, hHi, hHf, hTi, hTf, hCk, hValid]

/-- Settles O46: no count runs in IDLE, the store is cleared, and nothing has been read. -/
theorem resetIsSafe : Obligations.ResetIsSafe :=
  ⟨registerBounds_of_no_count rfl rfl (by decide), storedReading_resetRegisters State.reset,
    readProgress_of_nothingRead (.inl rfl) rfl rfl⟩

end Sys2Proof.Machine
end

section
/-! The writers of the Reading Store (O37; R33, R34) and the reading that stands while none of them runs (O39; R38). -/

namespace Sys2Proof.Machine

variable {s t u : State}

/-! ## The writers -/

theorem storeCleared_resetRegisters (s : State) : StoreCleared s.resetRegisters := ⟨rfl, rfl, rfl, rfl, rfl, rfl⟩

theorem storeHolds_commit (s : State) : StoreHolds s.commit s.frame := ⟨rfl, rfl, rfl, rfl, rfl, rfl⟩

theorem storeCleared_consumeInput : StoreCleared u.consumeInput ↔ StoreCleared u := Iff.rfl

theorem storeHolds_consumeInput {f : Vector Byte 5} : StoreHolds u.consumeInput f ↔ StoreHolds u f := Iff.rfl

/-- A tick in VALIDATING whose frame passes the checksum test is the commit (R80). -/
theorem step_commit (hr : (s.inputAt 0).rst = false) (hst : s.st = .validating) (hf : ChecksumMatches s.frame) :
    step s = .next s.commit.consumeInput := by
  rw [step_validate hr hst, if_pos ((frameSum_eq_iff _).2 hf)]

/-! ## Every other tick -/

theorem sameStore_refl (s : State) : SameStore s s := ⟨rfl, rfl, rfl, rfl, rfl, rfl⟩

theorem sameStore_recover (s : State) : SameStore s { s with st := .idle } := ⟨rfl, rfl, rfl, rfl, rfl, rfl⟩

theorem sameStore_consumeInput : SameStore s u.consumeInput ↔ SameStore s u := Iff.rfl

theorem SameStore.trans (hst : SameStore s t) (htu : SameStore t u) : SameStore s u := by
  obtain ⟨eHi, eHf, eTi, eTf, eCk, eValid⟩ := hst
  obtain ⟨eHi', eHf', eTi', eTf', eCk', eValid'⟩ := htu
  exact ⟨eHi'.trans eHi, eHf'.trans eHf, eTi'.trans eTi, eTf'.trans eTf, eCk'.trans eCk, eValid'.trans eValid⟩

/-- Of the effects of a tick, only the reset and the commit touch the store. -/
theorem TickEffect.sameStore (hu : TickEffect s u) (hr : (s.inputAt 0).rst = false)
    (hv : ¬ (s.st = .validating ∧ ChecksumMatches s.frame)) : SameStore s u := by
  cases hu with
  | reset hr' => simp [hr] at hr'
  | wait => exact sameStore_refl s
  | start => exact sameStore_beginRead s
  | windowCounts => exact sameStore_countUp s
  | windowEnds => exact sameStore_enter s _ _
  | phaseCounts => exact sameStore_countUp s
  | phaseTimesOut => exact sameStore_raise s _
  | phaseEnds => exact sameStore_enter s _ _
  | bitHighEnds => exact (endBitHigh_frame s).1
  | assemble => exact sameStore_assemble s
  | commit _ hst hf => exact absurd ⟨hst, hf⟩ hv
  | mismatch => exact sameStore_raise s _
  | recover => exact sameStore_recover s

theorem sameStore_of_step (h : step s = .next t) (hr : (s.inputAt 0).rst = false)
    (hv : ¬ (s.st = .validating ∧ ChecksumMatches s.frame)) : SameStore s t := by
  obtain ⟨u, hu, rfl⟩ := tickEffect_of_step h
  exact sameStore_consumeInput.2 (hu.sameStore hr hv)

/-- Settles O37: the reset clears the store, the commit copies the frame, and no other effect of a tick touches it. -/
theorem storeHasTwoWriters : Obligations.StoreHasTwoWriters := by
  intro s t h
  refine ⟨fun hr => ?_, fun hr hst hf => ?_, sameStore_of_step h⟩
  · cases (step_reset hr).symm.trans h
    exact storeCleared_consumeInput.2 (storeCleared_resetRegisters s)
  · cases (step_commit hr hst hf).symm.trans h
    exact ⟨storeHolds_consumeInput.2 (storeHolds_commit s), rfl⟩

/-! ## Runs of ticks -/

/-- No operation touches the inputs to come or the tick index (R19). -/
theorem TickEffect.sameInputs (hu : TickEffect s u) : SameInputs s u := by
  cases hu with
  | bitHighEnds => exact (endBitHigh_frame s).2.1
  | _ => exact ⟨rfl, rfl⟩

theorem inputAt_of_step (h : step s = .next t) (k : Nat) : t.inputAt k = s.inputAt (k + 1) := by
  obtain ⟨u, hu, rfl⟩ := tickEffect_of_step h
  rw [State.inputAt_consumeInput, State.inputAt_congr hu.sameInputs]

theorem NoReset.of_step {k : Nat} (hn : NoReset s (k + 1)) (h : step s = .next t) : NoReset t k := by
  intro j hj
  rw [inputAt_of_step h]
  exact hn (j + 1) (by omega)

/-- A run of `k + 1` ticks is one step and a run of `k` ticks from where it leads. -/
theorem runTicks_succ_eq_next {k : Nat} :
    runTicks (k + 1) s = .next t ↔ ∃ u, step s = .next u ∧ runTicks k u = .next t := by
  cases h : step s with
  | next u => simp [runTicks, h]
  | fault r => simp [runTicks, h]
  | refused r => simp [runTicks, h]

/-- Settles O39, by induction on the ticks: none is a reset or a commit, so each leaves the store alone. -/
theorem lastReadingStands : Obligations.LastReadingStands := by
  intro k
  induction k with
  | zero => intro s t h _ _; cases h; exact sameStore_refl s
  | succ k ih =>
    intro s t h hn hv
    obtain ⟨u, hstep, hrun⟩ := runTicks_succ_eq_next.1 h
    have hst : s.st ≠ .validating := hv 0 (by omega) s rfl
    have hfirst : SameStore s u := sameStore_of_step hstep (hn 0 (by omega)) fun h => hst h.1
    have hrest : SameStore u t := ih u t hrun (hn.of_step hstep) fun j hj v hjv =>
      hv (j + 1) (by omega) v (runTicks_succ_eq_next.2 ⟨u, hstep, hjv⟩)
    exact hfirst.trans hrest

end Sys2Proof.Machine
end

section
/-! The writers of the frame buffer: RESET, START and the end of a BIT_HIGH phase (O38; R36). -/

namespace Sys2Proof.Machine

variable {s t u : State}

/-- A tick in BIT_HIGH that samples the line low ends the phase (R65, R71). -/
theorem step_bitHigh_low (hr : (s.inputAt 0).rst = false) (hst : s.st = .bitHigh)
    (hl : (s.inputAt 0).lineIn = .low) : step s = .next (endBitHigh s.cnt s).consumeInput := by
  rw [step_bitHigh hr hst, State.measure, if_neg (by simp [State.lineIn_eq, hl])]

@[simp] theorem State.nextSlot_frame (s : State) : s.nextSlot.frame = s.frame := by
  unfold State.nextSlot
  split <;> rfl

/-- A pulse classified 0 writes nothing to the frame (R74, R75). -/
theorem endBitHigh_frame_of_le (h : s.cnt.toNat ≤ 40) : (endBitHigh s.cnt s).frame = s.frame := by
  have h0 : classify s.cnt = false := decide_eq_false (Nat.not_lt.2 h)
  simp [endBitHigh, h0]

/-- Of the effects of a tick, only the reset, the start and the end of a BIT_HIGH phase touch the frame. -/
theorem TickEffect.frame_eq (hu : TickEffect s u) (hr : (s.inputAt 0).rst = false) (hb : ¬ ReadBegins s)
    (hh : ¬ (s.st = .bitHigh ∧ (s.inputAt 0).lineIn = .low)) : u.frame = s.frame := by
  cases hu with
  | reset hr' => simp [hr] at hr'
  | start hb' => exact absurd hb' hb
  | bitHighEnds _ hst hl => exact absurd ⟨hst, Level.ne_high.1 hl⟩ hh
  | _ => rfl

/-- Settles O38: the three writers by the step each of them is, and no other effect of a tick touches the frame. -/
theorem frameHasThreeWriters : Obligations.FrameHasThreeWriters := by
  intro s t h
  refine ⟨fun hr => ?reset, fun hb => ?start, fun hr hst hl => ?bitHigh, fun hr hb hh => ?other⟩
  case reset => cases (step_reset hr).symm.trans h; rfl
  case start => cases (step_start hb).symm.trans h; rfl
  case bitHigh =>
    cases (step_bitHigh_low hr hst hl).symm.trans h
    exact ⟨endBitHigh_frame_of_le, fun i hi => endBitHigh_streamBit s hi⟩
  case other =>
    obtain ⟨u, hu, rfl⟩ := tickEffect_of_step h
    exact hu.frame_eq hr hb hh

end Sys2Proof.Machine
end

section
/-! What does not depend on the registers of the read in progress, `cnt`, `n` and `frame`: the outputs (O23; R26, R35),
and what follows a START (O17; R36, R54, R91). -/

namespace Sys2Proof.Machine

variable {s t : State}

/-- Settles O23: each output is a function of `st` or of the store's registers. -/
theorem outputsHideTheReadInProgress : Obligations.OutputsHideTheReadInProgress := by
  intro s t hst hstore
  obtain ⟨eHi, eHf, eTi, eTf, eCk, eValid⟩ := hstore
  simp only [State.outputs, State.lineOe, State.lineOut, State.busy, State.status, hst, State.humX10, State.tempX10,
    State.lastChecksumByte, State.validOut, eHi, eHf, eTi, eTf, eCk, eValid]

theorem ReadBegins.of_sameInputs (h : ReadBegins s) (hi : SameInputs s t) (hw : t.st.isWaiting = true) :
    ReadBegins t := by
  obtain ⟨-, hr, hstart⟩ := h
  rw [← State.inputAt_congr hi] at hr hstart
  exact ⟨hw, hr, hstart⟩

/-- A read begun keeps the store and the inputs, and writes every other register with a constant (R54). -/
theorem State.beginRead_congr (hs : SameStore s t) (hi : SameInputs s t) : t.beginRead = s.beginRead := by
  obtain ⟨eHi, eHf, eTi, eTf, eCk, eValid⟩ := hs
  obtain ⟨eInputs, eTick⟩ := hi
  simp only [State.beginRead, eHi, eHf, eTi, eTf, eCk, eValid, eInputs, eTick]

/-- Settles O17: both steps are a START, and the reads they begin are the same. -/
theorem startForgetsTheReadBefore : Obligations.StartForgetsTheReadBefore := by
  intro s s' hb hw hs hi
  rw [step_start hb, step_start (hb.of_sameInputs hi hw), State.beginRead_congr hs hi]

end Sys2Proof.Machine
end

section
/-! The encodings of the states, the input word and the control word, each inverse to its decoding, and with them the
round trip of the decoder and the encoder (O3, O4, O5, O6; 30_encoding.md R43, R44, R46, R47). -/

namespace Sys2Proof

/-! ## The state codes (R44) -/

@[simp] theorem St.ofCode_code (st : St) : St.ofCode st.code = st := by
  cases st with
  | reserved k => revert k; decide
  | _ => rfl

@[simp] theorem St.code_ofCode (c : BitVec 4) : (St.ofCode c).code = c := by
  revert c; decide

theorem St.code_reserved_toNat (k : BitVec 2) : (St.reserved k).code.toNat = 12 + k.toNat := by
  revert k; decide

theorem St.isWaiting_iff (st : St) : st.isWaiting = true ↔ st.code.extractLsb' 2 2 = 0b00 := by
  cases st with
  | reserved k => revert k; decide
  | _ => decide

theorem St.isBusy_iff (st : St) : st.isBusy = true ↔ 4 ≤ st.code.toNat ∧ st.code.toNat ≤ 11 := by
  cases st with
  | reserved k => revert k; decide
  | _ => decide

/-- Settles O6: the named codes by computation, the rest by the state's own lemmas. -/
theorem stateEncoding : Obligations.StateEncoding :=
  ⟨rfl, rfl, rfl, rfl, rfl, rfl, rfl, rfl, rfl, rfl, rfl, rfl, St.code_reserved_toNat, St.ofCode_code, St.code_ofCode,
    St.isWaiting_iff, St.isBusy_iff⟩

/-! ## The input word (R43) -/

theorem Level.bit_eq_true_iff (L : Level) : L.bit = true ↔ L = .high := by cases L <;> simp [Level.bit]

theorem InputWord.bits_getLsbD_two (i : InputWord) : i.bits.getLsbD 2 = i.rst := by
  rw [InputWord.bits, BitVec.getLsbD_append, BitVec.getLsbD_append]; simp

theorem InputWord.bits_getLsbD_one (i : InputWord) : i.bits.getLsbD 1 = i.start := by
  rw [InputWord.bits, BitVec.getLsbD_append, BitVec.getLsbD_append]; simp

theorem InputWord.bits_getLsbD_zero (i : InputWord) : i.bits.getLsbD 0 = i.lineIn.bit := by
  rw [InputWord.bits, BitVec.getLsbD_append]; simp

@[simp] theorem InputWord.ofBits_bits (i : InputWord) : InputWord.ofBits i.bits = i := by
  simp only [InputWord.ofBits, InputWord.bits_getLsbD_two, InputWord.bits_getLsbD_one, InputWord.bits_getLsbD_zero,
    Level.ofBit_bit]

/-- The three bits of a word are those of the inputs it stands for. -/
@[simp] theorem InputWord.bits_ofBits (b : BitVec 3) : (InputWord.ofBits b).bits = b := by
  refine BitVec.eq_of_getLsbD_eq fun j hj => ?_
  obtain rfl | rfl | rfl : j = 0 ∨ j = 1 ∨ j = 2 := by omega
  all_goals simp only [InputWord.bits_getLsbD_two, InputWord.bits_getLsbD_one, InputWord.bits_getLsbD_zero,
    InputWord.ofBits, Level.bit_ofBit]

/-- Settles O5: the word bit by bit, and the two directions. -/
theorem inputWordLayout : Obligations.InputWordLayout := by
  refine ⟨fun i => ⟨i.bits_getLsbD_two, i.bits_getLsbD_one, ?_, i.ofBits_bits⟩, InputWord.bits_ofBits⟩
  rw [InputWord.bits_getLsbD_zero, Level.bit_eq_true_iff]

/-! ## The control word (R46) -/

theorem controlWord_getLsbD_of_lt (rst start : Bool) (st : St) {j : Nat} (hj : j < 4) :
    (controlWord rst start st).getLsbD j = st.code.getLsbD j := by
  rw [controlWord, BitVec.getLsbD_append, if_pos hj]

/-- Every 6-bit word is the control word of its three fields. -/
theorem controlWord_of_fields (c : BitVec 6) :
    controlWord (c.getLsbD 5) (c.getLsbD 4) (St.ofCode (c.extractLsb' 0 4)) = c := by
  refine BitVec.eq_of_getLsbD_eq fun j hj => ?_
  obtain ⟨h5, h4, -⟩ := controlWord_fields (c.getLsbD 5) (c.getLsbD 4) (St.ofCode (c.extractLsb' 0 4))
  obtain rfl | rfl | hlow : j = 5 ∨ j = 4 ∨ j < 4 := by omega
  · exact h5
  · exact h4
  · rw [controlWord_getLsbD_of_lt _ _ _ hlow, St.code_ofCode]
    simp [hlow]

/-- The operation a control word selects keeps its bits: a row carries those that its pattern leaves open, and the state it
carries is the one that selected it. -/
theorem encode_decode_controlWord (rst start : Bool) (st : St) :
    encode (decode (controlWord rst start st)) = controlWord rst start st ∧
      (decode (controlWord rst start st)).WellFormed = true := by
  cases rst with
  | true => rw [decode_of_rst]; exact ⟨rfl, rfl⟩
  | false =>
    rw [decode_of_no_rst]
    cases st with
    | idle | done | failTimeout | failChecksum => cases start <;> exact ⟨rfl, rfl⟩
    | _ => exact ⟨rfl, rfl⟩

theorem encode_decode (c : BitVec 6) : encode (decode c) = c ∧ (decode c).WellFormed = true := by
  rw [← controlWord_of_fields c]
  exact encode_decode_controlWord _ _ _

/-- Settles O3: decoding undoes the encoding of a well-formed instruction, and every word is the control word of its
fields, which the selected operation keeps. -/
theorem decodeEncodeRoundTrip : Obligations.DecodeEncodeRoundTrip :=
  ⟨fun _ => decode_encode, encode_decode⟩

theorem decode_of_encode {c : BitVec 6} {i : Instr} (hi : i.WellFormed = true) (hc : encode i = c) :
    decode c = i := by
  rw [← hc, decode_encode hi]

/-- Settles O4: each word is the encoding of its well-formed operation. -/
theorem writtenOutWordsDecode : Obligations.WrittenOutWordsDecode := by
  unfold Obligations.WrittenOutWordsDecode
  and_intros <;> exact decode_of_encode rfl rfl

end Sys2Proof
end

section
/-! The operation map row by row: which control words select each row (O1; R46). -/

namespace Sys2Proof

/-- The rows of the operation map as R46 prints them: mnemonic, match and mask. -/
def operationMap : List (String × BitVec 6 × BitVec 6) :=
  [("RESET",    0b100000, 0b100000),
   ("WAIT",     0b000000, 0b111100),
   ("START",    0b010000, 0b111100),
   ("REQ_LOW",  0b000100, 0b101111),
   ("REQ_HIGH", 0b000101, 0b101111),
   ("ACK1",     0b000110, 0b101111),
   ("ACK2",     0b000111, 0b101111),
   ("BIT_LOW",  0b001000, 0b101111),
   ("BIT_HIGH", 0b001001, 0b101111),
   ("ASSEMBLE", 0b001010, 0b101111),
   ("VALIDATE", 0b001011, 0b101111),
   ("RSV",      0b001100, 0b101100)]

/-- Each operation's mnemonic and `rowOf` are one row of the map. -/
theorem mem_operationMap (i : Instr) : (i.mnemonic, rowOf i) ∈ operationMap := by
  cases i <;> simp [operationMap, Instr.mnemonic, rowOf]

theorem operationMap_mnemonic_inj : ∀ r ∈ operationMap, ∀ r' ∈ operationMap, r.1 = r'.1 → r = r' := by
  decide

/-- No control word matches two rows: their matches differ under the two masks together. -/
theorem operationMap_disjoint : ∀ r ∈ operationMap, ∀ r' ∈ operationMap,
    r.2.1 &&& r'.2.2 = r'.2.1 &&& r.2.2 → r = r' := by
  decide

/-- The family RowMatch for every instruction. -/
theorem rowMatch : ∀ i : Instr, Laws.RowMatch.Statement i
  | .reset start st  => Laws.RowMatch.reset start st
  | .wait st         => Laws.RowMatch.wait st
  | .start st        => Laws.RowMatch.start st
  | .reqLow start    => Laws.RowMatch.reqLow start
  | .reqHigh start   => Laws.RowMatch.reqHigh start
  | .ack1 start      => Laws.RowMatch.ack1 start
  | .ack2 start      => Laws.RowMatch.ack2 start
  | .bitLow start    => Laws.RowMatch.bitLow start
  | .bitHigh start   => Laws.RowMatch.bitHigh start
  | .assemble start  => Laws.RowMatch.assemble start
  | .validate start  => Laws.RowMatch.validate start
  | .rsv start st    => Laws.RowMatch.rsv start st

/-- A control word lies in the row of the operation it selects. -/
theorem and_mask_rowOf_decode (c : BitVec 6) : c &&& (rowOf (decode c)).2 = (rowOf (decode c)).1 := by
  obtain ⟨hword, hwf⟩ := encode_decode c
  simpa only [hword] using rowMatch (decode c) hwf

/-- A control word selects the row `(name, m, mask)` exactly when it matches it: the row of the selected operation matches,
and no second row does. -/
theorem mnemonic_decode_eq_iff {name : String} {m mask : BitVec 6} (hrow : (name, m, mask) ∈ operationMap)
    (c : BitVec 6) : (decode c).mnemonic = name ↔ c &&& mask = m := by
  have hsel := mem_operationMap (decode c)
  have hmatch := and_mask_rowOf_decode c
  constructor
  · intro hname
    obtain ⟨-, hr⟩ := Prod.mk.inj (operationMap_mnemonic_inj _ hsel _ hrow hname)
    simpa only [hr] using hmatch
  · intro hc
    have hboth : (rowOf (decode c)).1 &&& mask = m &&& (rowOf (decode c)).2 := by
      rw [← hmatch, ← hc, BitVec.and_assoc, BitVec.and_assoc, BitVec.and_comm mask]
    exact congrArg Prod.fst (operationMap_disjoint _ hsel _ hrow hboth)

theorem controlWord_extractLsb'_code (rst start : Bool) (st : St) :
    (controlWord rst start st).extractLsb' 0 4 = st.code := by
  obtain ⟨-, -, hst⟩ := controlWord_fields rst start st
  rw [← hst, St.code_ofCode, hst]

end Sys2Proof

namespace Sys2Proof.Machine

/-- Settles O1: the fields of the tick's control word, and for each row of the map the words that match it. -/
theorem controlWordSelectsItsRow : Obligations.ControlWordSelectsItsRow := by
  refine ⟨fun s => ?layout, fun c => ?rows⟩
  case layout =>
    obtain ⟨h5, h4, -⟩ := controlWord_fields (s.inputAt 0).rst (s.inputAt 0).start s.st
    exact ⟨h5, h4, controlWord_extractLsb'_code _ _ _⟩
  case rows =>
    and_intros <;> exact mnemonic_decode_eq_iff (by simp [operationMap]) c

end Sys2Proof.Machine
end

section
/-! No operation faults, whatever state it is applied to, so every tick answers a next state (O2, O10, O42; R47, R50,
R85). -/

namespace Sys2Proof.Machine

variable {s t u : State}

/-! ## Every operation answers a next state -/

/-- Every arm of the operation map has its meaning, and none faults or is refused. -/
theorem exec_answers (i : Instr) (s : State) : ∃ t, exec i s = .next t := by
  cases i <;> exact ⟨_, rfl⟩

theorem step_answers (s : State) : ∃ t, step s = .next t := by
  obtain ⟨u, hu⟩ := exec_answers (decode s.controlWord) s
  exact ⟨_, step_of_exec rfl hu⟩

theorem tick_of_step (h : step s = .next t) : t.tick = s.tick + 1 := by
  obtain ⟨u, hu, rfl⟩ := tickEffect_of_step h
  obtain ⟨-, htick⟩ := hu.sameInputs
  rw [State.consumeInput_tick, htick]

/-- Settles O2: the decoder's priority row by row, and the operations that all answer. -/
theorem decodePriority : Obligations.DecodePriority :=
  ⟨decode_of_rst, fun _ hst => ⟨decode_of_waiting hst true, decode_of_waiting hst false⟩,
    fun start => ⟨decode_of_no_rst start .reqLow, decode_of_no_rst start .reqHigh, decode_of_no_rst start .awaitAck1,
      decode_of_no_rst start .awaitAck2, decode_of_no_rst start .bitLow, decode_of_no_rst start .bitHigh,
      decode_of_no_rst start .assembling, decode_of_no_rst start .validating⟩,
    fun start _ => decode_of_reserved rfl start, fun c => exec_answers (decode c)⟩

/-- Settles O10: the operation answers, leaves the inputs alone, and the tick consumes one word of them. -/
theorem noStepStops : Obligations.NoStepStops := by
  intro s
  obtain ⟨t, ht⟩ := step_answers s
  exact ⟨t, ht, tick_of_step ht, inputAt_of_step ht⟩

/-! ## The reserved codes (R50) -/

theorem isReserved_of_isWaiting {S : St} (h : S.isWaiting = true) : S.isReserved = false := by
  cases S with
  | reserved k => simp [St.isWaiting] at h
  | _ => rfl

theorem isReserved_of_isBusy {S : St} (h : S.isBusy = true) : S.isReserved = false := by
  cases S with
  | reserved k => simp [St.isBusy] at h
  | _ => rfl

/-- Every effect of a tick leads to a waiting or a busy state. -/
theorem TickEffect.isReserved_eq_false (hu : TickEffect s u) : u.st.isReserved = false := by
  cases hu with
  | reset => rfl
  | wait _ _ hw => exact isReserved_of_isWaiting hw
  | start => rfl
  | windowCounts _ hw => exact isReserved_of_isBusy (isBusy_of_window hw).1
  | windowEnds _ hw => exact isReserved_of_isBusy (isBusy_of_window hw).2
  | phaseCounts _ hp => exact isReserved_of_isBusy (isBusy_of_phase hp)
  | phaseTimesOut => rfl
  | phaseEnds _ _ hS => exact isReserved_of_isBusy (isBusy_of_phaseSuccessor hS)
  | bitHighEnds => exact isReserved_of_isBusy (endBitHigh_isBusy s)
  | assemble => rfl
  | commit => rfl
  | mismatch => rfl
  | recover => rfl

theorem outputs_of_reserved {k : BitVec 2} (h : s.st = .reserved k) :
    s.busy = false ∧ s.status.code = 0 ∧ s.lineOe = false := by
  refine ⟨?_, ?_, ?_⟩
  · rw [busy_eq, h]; rfl
  · rw [State.status, h]; rfl
  · rw [State.lineOe, h]

/-- Settles O42: RSV writes `st` alone, a reserved state's tick without a reset is RSV, and no effect of a tick leads to
a reserved code. -/
theorem reservedCodesRecover : Obligations.ReservedCodesRecover := by
  refine ⟨fun start st s => ?rsv, fun s k hst hr => ?tick, fun s k => outputs_of_reserved, fun s t h => ?entry⟩
  case rsv => exact ⟨_, rfl, rfl, rfl, rfl, rfl, sameStore_recover s, rfl, rfl⟩
  case tick => exact (after_succ (step_rsv (hr 0 (by omega)) hst)).2 (after_zero rfl)
  case entry =>
    obtain ⟨u, hu, rfl⟩ := tickEffect_of_step h
    exact hu.isReserved_eq_false

end Sys2Proof.Machine
end

section
/-! The model's own byte form of a control word, and the word presented to the next tick (O8, O7; log entries 3 and 4). -/

namespace Sys2Proof

/-! ## The byte form -/

/-- A byte is below 64 exactly when its bits 7 and 6 are zero. -/
theorem byte_lt_64_iff (b : Byte) : b.toNat < 64 ↔ b.getLsbD 6 = false ∧ b.getLsbD 7 = false := by
  have hb := b.isLt
  simp only [BitVec.getLsbD, Nat.testBit_eq_decide_div_mod_eq, decide_eq_false_iff_not]
  omega

theorem decodeByte_of_lt {b : Byte} (h : b.toNat < 64) : decodeByte b = .ok (decode (b.extractLsb' 0 6)) :=
  if_pos h

theorem decodeByte_of_le {b : Byte} (h : 64 ≤ b.toNat) : decodeByte b = .error .notAControlWord :=
  if_neg (Nat.not_lt.2 h)

/-- Settles O8: the bound of the byte form is the two bits above the control word. -/
theorem onlyControlWordsDecode : Obligations.OnlyControlWordsDecode := by
  refine fun b => ⟨fun hbit => decodeByte_of_le (Nat.not_lt.1 fun hlt => ?_),
    fun h6 h7 => decodeByte_of_lt ((byte_lt_64_iff b).2 ⟨h6, h7⟩)⟩
  obtain ⟨h6, h7⟩ := (byte_lt_64_iff b).1 hlt
  rw [h6, h7] at hbit
  simp at hbit

/-- A number below 64 is the table's word for the control word of that value. -/
theorem decodeTableWord_of_lt {w : Nat} (hw : w < 64) : decodeTableWord 8 w = some (decode (BitVec.ofNat 6 w)) := by
  have hlt : (BitVec.ofNat 8 w).toNat < 64 := by rw [BitVec.toNat_ofNat]; omega
  have hlow : (BitVec.ofNat 8 w).extractLsb' 0 6 = BitVec.ofNat 6 w := by
    apply BitVec.eq_of_toNat_eq
    simp
  rw [decodeTableWord, if_pos (by omega), decodeByte_of_lt hlt, hlow]
  rfl

end Sys2Proof

namespace Sys2Proof.Machine

/-! ## The presented control word -/

/-- The word presented is the control word of the next tick. -/
theorem controlWord_presentControlWord (s : State) (c : BitVec 6) : (s.presentControlWord c).controlWord = c :=
  controlWord_of_fields c

/-- Only the input word due next is replaced. -/
theorem inputAt_presentControlWord (s : State) (c : BitVec 6) {k : Nat} (hk : 1 ≤ k) :
    (s.presentControlWord c).inputAt k = s.inputAt k := by
  obtain ⟨k, rfl⟩ : ∃ j, k = j + 1 := ⟨k - 1, by omega⟩
  simp [State.inputAt, State.presentControlWord]

theorem withFetchWord_of_lt (s : State) {w : Nat} (hw : w < 64) :
    s.withFetchWord 8 w = s.presentControlWord (BitVec.ofNat 6 w) := by
  rw [State.withFetchWord, Nat.mod_eq_of_lt (by omega)]

/-- Settles O7: the presented word is fetched and decoded, and only `st` and the input word due next are written. -/
theorem presentedControlWordIsFetched : Obligations.PresentedControlWordIsFetched := by
  intro s w hw
  rw [withFetchWord_of_lt s hw, controlWord_presentControlWord]
  exact ⟨rfl, decodeTableWord_of_lt hw, rfl, rfl, rfl, ⟨rfl, rfl, rfl, rfl, rfl, rfl⟩, rfl,
    fun k hk => inputAt_presentControlWord s _ hk⟩

end Sys2Proof.Machine
end

section
/-! The caller's operations on a waiting block: WAIT holds it for any number of ticks (O13; R53), and START begins a read
(O14; R54). -/

namespace Sys2Proof.Machine

variable {s t u : State}

/-! ## Waiting -/

theorem sameRegisters_refl (s : State) : SameRegisters s s := ⟨rfl, rfl, rfl, rfl, sameStore_refl s⟩

theorem sameRegisters_consumeInput_left : SameRegisters s.consumeInput t ↔ SameRegisters s t := Iff.rfl

theorem isBusy_of_isWaiting {S : St} (h : S.isWaiting = true) : S.isBusy = false := by
  cases S with
  | idle | done | failTimeout | failChecksum => rfl
  | _ => simp [St.isWaiting] at h

/-- By induction on the ticks: each is a WAIT, which leaves the block waiting with one input word less. -/
theorem after_waiting {k : Nat} (hw : s.st.isWaiting = true)
    (hin : ∀ j < k, (s.inputAt j).rst = false ∧ (s.inputAt j).start = false) : After k s (SameRegisters s) := by
  induction k generalizing s with
  | zero => exact after_zero (sameRegisters_refl s)
  | succ k ih =>
    obtain ⟨hr, hstart⟩ := hin 0 (by omega)
    have hrest : After k s.consumeInput (SameRegisters s.consumeInput) := by
      refine ih hw fun j hj => ?_
      rw [State.inputAt_consumeInput]
      exact hin (j + 1) (by omega)
    exact (after_succ (step_wait hr hstart hw)).2 hrest

/-- Settles O13: WAIT is the identity, and a run of them keeps the registers, of which the outputs are functions. -/
theorem waitHolds : Obligations.WaitHolds := by
  refine ⟨fun _ s => ⟨s, rfl, sameRegisters_refl s, rfl, rfl⟩, fun s k hw hin => ?_⟩
  obtain ⟨t, hrun, hsame⟩ := after_waiting hw hin
  have ⟨hst, _, _, _, hstore⟩ := hsame
  refine ⟨t, hrun, hsame, outputsHideTheReadInProgress s t hst hstore, ?_⟩
  rw [busy_eq, hst, isBusy_of_isWaiting hw]

/-! ## Starting -/

theorem readBegun_beginRead (s : State) : ReadBegun s s.beginRead :=
  ⟨rfl, rfl, rfl, rfl, sameStore_beginRead s, rfl, rfl, rfl, rfl⟩

theorem readBegun_consumeInput : ReadBegun s u.consumeInput ↔ ReadBegun s u := Iff.rfl

theorem registersReset_resetRegisters (s : State) : RegistersReset s.resetRegisters :=
  ⟨rfl, rfl, rfl, rfl, storeCleared_resetRegisters s⟩

theorem registersReset_consumeInput : RegistersReset u.consumeInput ↔ RegistersReset u := Iff.rfl

/-- Settles O14: START is the beginning of a read, performed by the tick of a waiting state unless it samples a reset. -/
theorem startBeginsARead : Obligations.StartBeginsARead := by
  refine ⟨fun _ s => ⟨s.beginRead, rfl, readBegun_beginRead s, rfl, rfl⟩, fun s hb => ?accepted, fun s _ hr _ => ?lost⟩
  case accepted =>
    exact (after_succ (step_start hb)).2 (after_zero (readBegun_consumeInput.2 (readBegun_beginRead s)))
  case lost =>
    exact (after_succ (step_reset hr)).2 (after_zero (registersReset_consumeInput.2 (registersReset_resetRegisters s)))

end Sys2Proof.Machine
end

section
/-! Of the inputs an operation reads only `line_in`, and in a busy state the operation does not depend on `start`, so a
request there leaves no trace (O15; R46, R55). -/

namespace Sys2Proof.Machine

variable {s t u : State}

/-! ## An operation reads of the inputs the line alone -/

/-- The state with another queue of inputs to come. -/
def State.withInputs (s : State) (q : List InputWord) : State := { s with inputs := q }

variable {q : List InputWord}

theorem State.holdWindow_withInputs (T : Nat) (S : St) :
    (s.withInputs q).holdWindow T S = (s.holdWindow T S).withInputs q :=
  (apply_ite (State.withInputs · q) (s.cnt.toNat = T - 1) (s.enter S 0) s.countUp).symm

/-- A phase's tick on the same line level is the same, given that of its end. -/
theorem State.measure_withInputs {L : Level} {B : Nat} {endPhase : Count → State → State}
    (hl : (s.withInputs q).lineIn = s.lineIn)
    (hend : endPhase s.cnt (s.withInputs q) = (endPhase s.cnt s).withInputs q) :
    (s.withInputs q).measure L B endPhase = (s.measure L B endPhase).withInputs q := by
  unfold State.measure
  by_cases hL : s.lineIn = L
  · rw [if_pos hL, if_pos (hl.trans hL)]
    exact (apply_ite (State.withInputs · q) (s.cnt.toNat = B) (s.raise .timeout) s.countUp).symm
  · rw [if_neg hL, if_neg (hl ▸ hL)]
    exact hend

theorem State.nextSlot_withInputs : (s.withInputs q).nextSlot = s.nextSlot.withInputs q :=
  (apply_ite (State.withInputs · q) (s.n.toNat = nBits - 1) (s.enter .assembling 0)
    { s.enter .bitLow 1 with n := s.n + 1 }).symm

theorem endBitHigh_withInputs (r : Count) : endBitHigh r (s.withInputs q) = (endBitHigh r s).withInputs q := by
  unfold endBitHigh
  split
  · exact State.nextSlot_withInputs (s := s.placeOne)
  · exact State.nextSlot_withInputs

/-- An operation neither reads nor writes the inputs to come, but for the level of the line at this tick. -/
theorem exec_withInputs {i : Instr} (h : exec i s = .next t) (hl : (s.withInputs q).lineIn = s.lineIn) :
    exec i (s.withInputs q) = .next (t.withInputs q) := by
  cases i with
  | reset | wait | start | assemble | rsv => cases h; rfl
  | reqLow | reqHigh => cases h; exact congrArg _ (State.holdWindow_withInputs _ _)
  | ack1 | ack2 | bitLow => cases h; exact congrArg _ (State.measure_withInputs hl rfl)
  | bitHigh => cases h; exact congrArg _ (State.measure_withInputs hl (endBitHigh_withInputs _))
  | validate =>
    cases h
    exact congrArg _ (apply_ite (State.withInputs · q) (frameSum s.frame = s.frame[4]) s.commit
      (s.raise .checksumMismatch)).symm

/-! ## The request in a busy state -/

/-- In a busy state `start` selects nothing: the row is the state's own (R46). -/
theorem exec_decode_of_busy {S : St} (h : S.isBusy = true) (start : Bool) (u : State) :
    exec (decode (controlWord false start S)) u = exec (decode (controlWord false false S)) u := by
  rw [decode_of_no_rst, decode_of_no_rst]
  cases S with
  | idle | done | failTimeout | failChecksum | reserved k => simp [St.isBusy] at h
  | _ => rfl

theorem inputs_of_step (h : step s = .next t) : t.inputs = s.inputs.tail := by
  obtain ⟨u, hu, rfl⟩ := tickEffect_of_step h
  rw [State.consumeInput_inputs, hu.sameInputs.1]

/-- A tick depends on its input word through the operation selected and the level of the line. -/
theorem step_withInputs (hop : exec (decode (s.withInputs q).controlWord) = exec (decode s.controlWord))
    (hl : (s.withInputs q).lineIn = s.lineIn) (hq : q.tail = s.inputs.tail) : step (s.withInputs q) = step s := by
  obtain ⟨u, hu⟩ := exec_answers (decode s.controlWord) s
  have hstep : step s = .next u.consumeInput := step_of_exec rfl hu
  have hstep' : step (s.withInputs q) = .next (u.withInputs q).consumeInput :=
    step_of_exec rfl (by rw [hop, exec_withInputs hu hl])
  have hrest : u.inputs.tail = q.tail := (inputs_of_step hstep).trans hq.symm
  rw [hstep, hstep']
  simp only [State.consumeInput, State.withInputs, hrest]

/-- Settles O15: the two ticks select the state's own operation on the same level of the line. -/
theorem startWhileBusyIsIgnored : Obligations.StartWhileBusyIsIgnored := by
  intro s i rest hbusy hr
  have hop (start : Bool) : exec (decode (s.withInputs ({ i with start := start } :: rest)).controlWord) =
      exec (decode (controlWord false false s.st)) := by
    rw [decode_no_reset (s := s.withInputs ({ i with start := start } :: rest)) hr]
    exact funext (exec_decode_of_busy hbusy start)
  exact step_withInputs (s := s.withInputs ({ i with start := false } :: rest)) ((hop true).trans (hop false).symm)
    rfl rfl

end Sys2Proof.Machine
end

section
/-! The start request on the line: how the parts of it are entered (O27; R63), and the ticks of its two windows, REQ_LOW
and REQ_HIGH (O24, O25; R61, R62). -/

namespace Sys2Proof.Machine

variable {s t u : State}

/-! ## The order of the request -/

/-- A tick that leads to a part of the start request was in that part, began the read, or ended the window before it. -/
theorem TickEffect.enters_request (hu : TickEffect s u)
    (hS : u.st = .reqLow ∨ u.st = .reqHigh ∨ u.st = .awaitAck1) :
    s.st = u.st ∨ (ReadBegins s ∧ u.st = .reqLow) ∨ ∃ T, window s.st = some (T, u.st) ∧ s.cnt.toNat = T - 1 := by
  cases hu with
  | wait | windowCounts | phaseCounts => exact .inl rfl
  | start hb => exact .inr (.inl ⟨hb, rfl⟩)
  | windowEnds _ hw hc => exact .inr (.inr ⟨_, hw, hc⟩)
  | reset | phaseTimesOut | assemble | commit | mismatch | recover => simp [ErrorKind.failState] at hS
  | phaseEnds _ _ hsucc =>
    obtain ⟨-, rfl⟩ | ⟨-, rfl⟩ | ⟨-, rfl⟩ := phaseSuccessor_eq_some.1 hsucc
    all_goals simp at hS
  | bitHighEnds =>
    obtain ⟨-, -, hlast, hnext⟩ := endBitHigh_frame s
    by_cases e : s.n.toNat = 39
    · simp [(hlast e).1] at hS
    · simp [(hnext e).1] at hS

/-- Settles O27: of the ways into a part of the request, the table of windows leaves the one before it. -/
theorem requestIsEnteredInOrder : Obligations.RequestIsEnteredInOrder := by
  refine ⟨fun s t h => ?_, fun _ => lineOe_iff⟩
  obtain ⟨u, hu, rfl⟩ := tickEffect_of_step h
  simp only [State.consumeInput_st]
  refine ⟨fun hst => ?reqLow, fun hst => ?reqHigh, fun hst => ?awaitAck1⟩
  case reqLow =>
    have hentry := hu.enters_request (.inl hst)
    simpa [hst, window_eq_some] using hentry
  case reqHigh =>
    have hentry := hu.enters_request (.inr (.inl hst))
    simpa [hst, window_eq_some, tStartLow] using hentry
  case awaitAck1 =>
    have hentry := hu.enters_request (.inr (.inr hst))
    simpa [hst, window_eq_some, tStartHigh] using hentry

/-! ## Inputs further on in a run -/

/-- Each tick of a run takes one word off the inputs (R19). -/
theorem inputAt_of_runTicks {k : Nat} (h : runTicks k s = .next t) (j : Nat) : t.inputAt j = s.inputAt (k + j) := by
  induction k generalizing s with
  | zero => cases h; rw [Nat.zero_add]
  | succ k ih =>
    obtain ⟨u, hstep, hrun⟩ := runTicks_succ_eq_next.1 h
    rw [ih hrun, inputAt_of_step hstep, Nat.add_right_comm]

theorem NoReset.of_runTicks {a b : Nat} (hn : NoReset s (a + b)) (h : runTicks a s = .next t) : NoReset t b := by
  intro j hj
  rw [inputAt_of_runTicks h]
  exact hn (a + j) (by omega)

/-! ## The windows -/

/-- The body of R61 and R62, with what it leaves as it was. -/
theorem holdWindow_spec (s : State) (T : Nat) (S : St) :
    (s.cnt.toNat = T - 1 → (s.holdWindow T S).st = S ∧ (s.holdWindow T S).cnt = 0) ∧
    (s.cnt.toNat ≠ T - 1 → (s.holdWindow T S).st = s.st ∧ (s.holdWindow T S).cnt = s.cnt + 1) ∧
    (s.holdWindow T S).n = s.n ∧ (s.holdWindow T S).frame = s.frame ∧ SameStore s (s.holdWindow T S) ∧
    SameInputs s (s.holdWindow T S) := by
  obtain ⟨hc, e⟩ | ⟨hc, e⟩ := s.holdWindow_cases T S
  · rw [e]
    exact ⟨fun _ => ⟨rfl, rfl⟩, fun h => absurd hc h, rfl, rfl, sameStore_enter s S 0, rfl, rfl⟩
  · rw [e]
    exact ⟨fun h => absurd h hc, fun _ => ⟨rfl, rfl⟩, rfl, rfl, sameStore_countUp s, rfl, rfl⟩

variable {T : Nat} {S : St}

theorem step_window (hr : (s.inputAt 0).rst = false) (hw : window s.st = some (T, S)) :
    step s = .next (s.holdWindow T S).consumeInput := by
  obtain ⟨hst, rfl, rfl⟩ | ⟨hst, rfl, rfl⟩ := window_eq_some.1 hw
  · exact step_reqLow hr hst
  · exact step_reqHigh hr hst

theorem step_window_countUp (hr : (s.inputAt 0).rst = false) (hw : window s.st = some (T, S))
    (hc : s.cnt.toNat ≠ T - 1) : step s = .next s.countUp.consumeInput := by
  rw [step_window hr hw, State.holdWindow, if_neg hc]

theorem step_window_enter (hr : (s.inputAt 0).rst = false) (hw : window s.st = some (T, S))
    (hc : s.cnt.toNat = T - 1) : step s = .next (s.enter S 0).consumeInput := by
  rw [step_window hr hw, State.holdWindow, if_pos hc]

/-- Short of its last tick a window counts the ticks, by induction on them. -/
theorem after_window_counts {k : Nat} (hw : window s.st = some (T, S)) (hn : NoReset s k)
    (hk : s.cnt.toNat + k < T) : After k s fun t => t.st = s.st ∧ t.cnt.toNat = s.cnt.toNat + k := by
  induction k generalizing s with
  | zero => exact after_zero ⟨rfl, rfl⟩
  | succ k ih =>
    have hstep := step_window_countUp (hn 0 (by omega)) hw (by omega)
    have hlimit : T - 1 < 32767 := (lastCount_range (lastCount_of_window hw)).2
    have hcnt : s.countUp.consumeInput.cnt.toNat = s.cnt.toNat + 1 := count_succ_toNat (by omega)
    have hrest := ih (s := s.countUp.consumeInput) hw (hn.of_step hstep) (by omega)
    rw [after_succ hstep]
    refine hrest.imp fun t ⟨hst, hc⟩ => ⟨hst, ?_⟩
    omega

/-- A window entered with `cnt = 0` lasts its `T` ticks, the last of which moves on (R61, R62). -/
theorem after_window (hw : window s.st = some (T, S)) (hc : s.cnt = 0) (hn : NoReset s T) :
    (∀ k < T, After k s fun t => t.st = s.st ∧ t.cnt.toNat = k) ∧ After T s fun t => t.st = S ∧ t.cnt = 0 := by
  have hcounts : ∀ k < T, After k s fun t => t.st = s.st ∧ t.cnt.toNat = k := by
    intro k hk
    simpa [hc] using after_window_counts hw (hn.mono hk.le) (by simpa [hc] using hk)
  have hT : T - 1 + 1 = T := by
    obtain ⟨-, rfl, -⟩ | ⟨-, rfl, -⟩ := window_eq_some.1 hw
    all_goals rfl
  refine ⟨hcounts, ?_⟩
  rw [← hT] at hn ⊢
  refine (hcounts (T - 1) (by omega)).trans fun t hrun ⟨hst, hcnt⟩ => ?_
  have hr : (t.inputAt 0).rst = false := hn.of_runTicks hrun 0 (by omega)
  exact (after_succ (step_window_enter hr (hst ▸ hw) hcnt)).2 (after_zero ⟨rfl, rfl⟩)

/-- Settles O24: REQ_LOW is the window of 20000 ticks before REQ_HIGH. -/
theorem reqLowWindow : Obligations.ReqLowWindow := by
  refine ⟨fun start => decode_of_no_rst start .reqLow, fun _ s => ⟨_, rfl, holdWindow_spec s tStartLow .reqHigh⟩,
    fun s hst => ?outputs, fun s hst hc hn => ?window⟩
  case outputs =>
    obtain ⟨hoe, hout⟩ := (lineOutputs s).1 hst
    exact ⟨hoe, hout, by rw [busy_eq, hst]; rfl⟩
  case window =>
    have hw : window s.st = some (20000, .reqHigh) := by rw [hst]; rfl
    exact hst ▸ after_window hw hc hn

/-- Settles O25: REQ_HIGH is the window of 30 ticks before AWAIT_ACK1, which releases the line. -/
theorem reqHighWindow : Obligations.ReqHighWindow := by
  refine ⟨fun start => decode_of_no_rst start .reqHigh, fun _ s => ⟨_, rfl, holdWindow_spec s tStartHigh .awaitAck1⟩,
    fun s hst => ?outputs, fun s hst hc hn => ?window⟩
  case outputs =>
    obtain ⟨hoe, hout⟩ := (lineOutputs s).2.1 hst
    exact ⟨hoe, hout, by rw [busy_eq, hst]; rfl⟩
  case window =>
    have hw : window s.st = some (30, .awaitAck1) := by rw [hst]; rfl
    obtain ⟨hcounts, hend⟩ := after_window hw hc hn
    refine ⟨hst ▸ hcounts, hend.imp fun t ⟨hst', hc'⟩ => ⟨hst', hc', ?_⟩⟩
    rw [State.lineOe, hst']

end Sys2Proof.Machine
end

section
/-! Only the four phases sample the line, so outside them its level has no effect (O16; R64). -/

namespace Sys2Proof.Machine

variable {s t : State}

/-- The operations that read `line_in`: those of the four phases (R48, R64). -/
def samplesLine : Instr → Bool
  | .ack1 _ | .ack2 _ | .bitLow _ | .bitHigh _ => true
  | _ => false

theorem phaseOperands_eq_none {S : St} : phaseOperands S = none ↔
    S ≠ .awaitAck1 ∧ S ≠ .awaitAck2 ∧ S ≠ .bitLow ∧ S ≠ .bitHigh := by
  cases S <;> simp [phaseOperands]

theorem samplesLine_decode {S : St} (h : phaseOperands S = none) (rst start : Bool) :
    samplesLine (decode (controlWord rst start S)) = false := by
  cases rst with
  | true => rw [decode_of_rst]; rfl
  | false =>
    rw [decode_of_no_rst]
    cases S with
    | idle | done | failTimeout | failChecksum => cases start <;> rfl
    | awaitAck1 | awaitAck2 | bitLow | bitHigh => cases h
    | _ => rfl

/-- An operation that does not sample the line neither reads nor writes the inputs to come. -/
theorem exec_withInputs_of_not_samplesLine {i : Instr} (h : exec i s = .next t) (hi : samplesLine i = false)
    (q : List InputWord) : exec i (s.withInputs q) = .next (t.withInputs q) := by
  cases i with
  | reset | wait | start | assemble | rsv => cases h; rfl
  | reqLow | reqHigh => cases h; exact congrArg _ (State.holdWindow_withInputs _ _)
  | ack1 | ack2 | bitLow | bitHigh => cases hi
  | validate =>
    cases h
    exact congrArg _ (apply_ite (State.withInputs · q) (frameSum s.frame = s.frame[4]) s.commit
      (s.raise .checksumMismatch)).symm

/-- Settles O16: the control word does not hold the line, and the operation it selects does not sample it. -/
theorem lineIsReadOnlyInThePhases : Obligations.LineIsReadOnlyInThePhases := by
  intro s i rest hAck1 hAck2 hLow hHigh
  have hi := samplesLine_decode (phaseOperands_eq_none.2 ⟨hAck1, hAck2, hLow, hHigh⟩) i.rst i.start
  obtain ⟨u, hu⟩ := exec_answers (decode (controlWord i.rst i.start s.st)) s
  have hstep (L : Level) : step (s.withInputs ({ i with lineIn := L } :: rest)) =
      .next (u.withInputs ({ i with lineIn := L } :: rest)).consumeInput :=
    step_of_exec rfl (exec_withInputs_of_not_samplesLine hu hi _)
  exact (hstep .low).trans (hstep .high).symm

end Sys2Proof.Machine
end

section
/-! The four phases as uses of one measurement (42_pulse_timer.md R65): one tick of it, and the run of ticks from a first
count to the end of the phase or to its timeout (O28 to O32; R66, R68 to R71). -/

namespace Sys2Proof.Machine

variable {s t u : State} {L : Level} {B k : Nat}

/-! ## One tick -/

/-- The continuation END_PHASE of each phase (R68 to R71). -/
def phaseEnd : St → Count → State → State
  | .awaitAck1 => fun _ s => s.enter .awaitAck2 1
  | .awaitAck2 => fun _ s => s.enter .bitLow 1
  | .bitLow    => fun _ s => s.enter .bitHigh 1
  | .bitHigh   => endBitHigh
  | _          => fun _ s => s

theorem phaseEnd_of_successor {S S' : St} (h : phaseSuccessor S = some S') (r : Count) (s : State) :
    phaseEnd S r s = s.enter S' 1 := by
  obtain ⟨rfl, rfl⟩ | ⟨rfl, rfl⟩ | ⟨rfl, rfl⟩ := phaseSuccessor_eq_some.1 h
  all_goals rfl

/-- Without a reset, a tick of a phase is the measurement with the phase's own operands and continuation. -/
theorem step_phase (hr : (s.inputAt 0).rst = false) (hp : phaseOperands s.st = some (L, B)) :
    step s = .next (s.measure L B (phaseEnd s.st)).consumeInput := by
  obtain ⟨hst, rfl, rfl⟩ | ⟨hst, rfl, rfl⟩ | ⟨hst, rfl, rfl⟩ | ⟨hst, rfl, rfl⟩ := phaseOperands_eq_some.1 hp
  · rw [step_ack1 hr hst, hst]; rfl
  · rw [step_ack2 hr hst, hst]; rfl
  · rw [step_bitLow hr hst, hst]; rfl
  · rw [step_bitHigh hr hst, hst]; rfl

theorem step_phase_countUp (hr : (s.inputAt 0).rst = false) (hp : phaseOperands s.st = some (L, B))
    (hl : (s.inputAt 0).lineIn = L) (hc : s.cnt.toNat ≠ B) : step s = .next s.countUp.consumeInput := by
  rw [step_phase hr hp, State.measure, State.lineIn_eq, if_pos hl, if_neg hc]

theorem step_phase_raise (hr : (s.inputAt 0).rst = false) (hp : phaseOperands s.st = some (L, B))
    (hl : (s.inputAt 0).lineIn = L) (hc : s.cnt.toNat = B) : step s = .next (s.raise .timeout).consumeInput := by
  rw [step_phase hr hp, State.measure, State.lineIn_eq, if_pos hl, if_pos hc]

theorem step_phase_end (hr : (s.inputAt 0).rst = false) (hp : phaseOperands s.st = some (L, B))
    (hl : (s.inputAt 0).lineIn ≠ L) : step s = .next (phaseEnd s.st s.cnt s).consumeInput := by
  rw [step_phase hr hp, State.measure, State.lineIn_eq, if_neg hl]

/-- An operation that measures has the shape of a phase's tick, given what its continuation does. -/
theorem phaseTick_of_measure {i : Instr} {endPhase : Count → State → State} {ended : State → State → Prop}
    (hexec : ∀ s, exec i s = .next (s.measure L B endPhase))
    (hend : ∀ s, SameStore s (endPhase s.cnt s) ∧ SameInputs s (endPhase s.cnt s) ∧ ended s (endPhase s.cnt s)) :
    PhaseTick i L B ended := by
  intro s
  refine ⟨_, hexec s, ?_⟩
  obtain ⟨hl, hc, e⟩ | ⟨hl, hc, e⟩ | ⟨hl, e⟩ := s.measure_cases L B endPhase
  · rw [e]
    exact ⟨sameStore_raise s _, ⟨rfl, rfl⟩, fun _ _ => ⟨rfl, rfl, rfl, rfl⟩, fun _ h => absurd hc h, absurd hl⟩
  · rw [e]
    exact ⟨sameStore_countUp s, ⟨rfl, rfl⟩, fun _ h => absurd h hc, fun _ _ => ⟨rfl, rfl, rfl, rfl⟩, absurd hl⟩
  · obtain ⟨hstore, hinputs, hended⟩ := hend s
    rw [e]
    exact ⟨hstore, hinputs, fun h => absurd h hl, fun h => absurd h hl, fun _ => hended⟩

/-- A phase that ends by entering the next one moves to it with its first sample counted (R67). -/
theorem phaseTick_movesTo {i : Instr} {S : St}
    (hexec : ∀ s, exec i s = .next (s.measure L B fun _ s => s.enter S 1)) : PhaseTick i L B (MovesTo S) :=
  phaseTick_of_measure hexec fun s => ⟨sameStore_enter s S 1, ⟨rfl, rfl⟩, rfl, rfl, rfl, rfl⟩

theorem bitPlaced_endBitHigh (s : State) : BitPlaced s (endBitHigh s.cnt s) := by
  obtain ⟨-, -, hlast, hnext⟩ := endBitHigh_frame s
  exact ⟨fun _ hi => endBitHigh_streamBit s hi, hlast, hnext⟩

/-- The end of a phase leaves it, and is no timeout (R65). -/
theorem phaseEnd_leaves (hp : phaseOperands s.st = some (L, B)) :
    (phaseEnd s.st s.cnt s).st ≠ s.st ∧ (phaseEnd s.st s.cnt s).st ≠ .failTimeout := by
  obtain ⟨hst, -⟩ | ⟨hst, -⟩ | ⟨hst, -⟩ | ⟨hst, -⟩ := phaseOperands_eq_some.1 hp
  case inr.inr.inr =>
    obtain ⟨-, -, hlast, hnext⟩ := endBitHigh_frame s
    by_cases e : s.n.toNat = 39
    · simp [hst, phaseEnd, (hlast e).1]
    · simp [hst, phaseEnd, (hnext e).1]
  all_goals simp [hst, phaseEnd]

/-! ## A run of samples -/

theorem LineHolds.mono {a m : Nat} (h : LineHolds s a k L) (hm : m ≤ k) : LineHolds s a m L :=
  fun j hj => h j (hj.trans_le hm)

theorem LineHolds.append {a m : Nat} (h : LineHolds s a k L) (hm : LineHolds s (a + k) m L) :
    LineHolds s a (k + m) L := by
  intro j hj
  by_cases hjk : j < k
  · exact h j hjk
  · have hrest := hm (j - k) (by omega)
    rwa [show a + k + (j - k) = a + j by omega] at hrest

theorem LineHolds.of_step (hl : LineHolds s 0 (k + 1) L) (h : step s = .next t) : LineHolds t 0 k L := by
  intro j hj
  rw [inputAt_of_step h, Nat.zero_add, ← Nat.zero_add (j + 1)]
  exact hl (j + 1) (by omega)

/-- `t` is `s` with `k` more samples of its phase counted, and nothing else of a read changed (R65). -/
structure CountedOn (s : State) (k : Nat) (t : State) : Prop where
  st : t.st = s.st
  cnt : t.cnt.toNat = s.cnt.toNat + k
  n : t.n = s.n
  frame : t.frame = s.frame

/-- Up to its bound a phase counts the samples at its level, by induction on them. -/
theorem after_phase_counts (hp : phaseOperands s.st = some (L, B)) (hn : NoReset s k) (hl : LineHolds s 0 k L)
    (hk : s.cnt.toNat + k ≤ B) : After k s (CountedOn s k) := by
  induction k generalizing s with
  | zero => exact after_zero ⟨rfl, rfl, rfl, rfl⟩
  | succ k ih =>
    have hstep := step_phase_countUp (hn 0 (by omega)) hp (hl 0 (by omega)) (by omega)
    have hlimit : B < 32767 := (lastCount_range (lastCount_of_phase hp)).2
    have hcnt : s.countUp.consumeInput.cnt.toNat = s.cnt.toNat + 1 := count_succ_toNat (by omega)
    have hrest := ih (s := s.countUp.consumeInput) hp (hn.of_step hstep) (hl.of_step hstep) (by omega)
    rw [after_succ hstep]
    refine hrest.imp fun t h => ⟨h.st, ?_, h.n, h.frame⟩
    rw [h.cnt, hcnt]
    omega

/-- The count `d` that a run within the bound leads to. -/
theorem after_phase_count_eq {S : St} {d : Nat} (hst : s.st = S) (hp : phaseOperands S = some (L, B))
    (hn : NoReset s k) (hl : LineHolds s 0 k L) (hd : s.cnt.toNat + k = d) (hB : d ≤ B) :
    After k s fun t => t.st = S ∧ t.cnt.toNat = d :=
  (after_phase_counts (hst ▸ hp) hn hl (hd.trans_le hB)).imp fun _ h => ⟨h.st.trans hst, h.cnt.trans hd⟩

/-- One more sample at the level once the count is at the bound raises Timeout (R65). -/
theorem after_phase_timesOut (hp : phaseOperands s.st = some (L, B)) (hn : NoReset s (k + 1))
    (hl : LineHolds s 0 (k + 1) L) (hk : s.cnt.toNat + k = B) :
    After (k + 1) s fun t => t.st = .failTimeout ∧ t.cnt.toNat = B ∧ t.n = s.n ∧ t.frame = s.frame := by
  have hcounted := after_phase_counts hp (hn.mono k.le_succ) (hl.mono k.le_succ) hk.le
  refine hcounted.trans fun u hrun h => ?_
  have hr : (u.inputAt 0).rst = false := hn.of_runTicks hrun 0 (by omega)
  have hlast : (u.inputAt 0).lineIn = L := by
    rw [inputAt_of_runTicks hrun]
    simpa using hl k (by omega)
  have hc : u.cnt.toNat = B := h.cnt.trans hk
  exact (after_succ (step_phase_raise hr (h.st ▸ hp) hlast hc)).2 (after_zero ⟨rfl, hc, h.n, h.frame⟩)

/-- The first sample away from the level ends the phase, with the samples counted as its result (R65, R66). -/
theorem after_phase_ends (hp : phaseOperands s.st = some (L, B)) (hn : NoReset s (k + 1)) (hl : LineHolds s 0 k L)
    (hk : s.cnt.toNat + k ≤ B) (hend : (s.inputAt k).lineIn ≠ L) :
    After (k + 1) s fun t => ∃ u, CountedOn s k u ∧ t = (phaseEnd s.st u.cnt u).consumeInput := by
  have hcounted := after_phase_counts hp (hn.mono k.le_succ) hl hk
  refine hcounted.trans fun u hrun h => ?_
  have hr : (u.inputAt 0).rst = false := hn.of_runTicks hrun 0 (by omega)
  have hlast : (u.inputAt 0).lineIn ≠ L := by rwa [inputAt_of_runTicks hrun]
  have hstep := step_phase_end hr (h.st ▸ hp) hlast
  exact (after_succ hstep).2 (after_zero ⟨u, h, by rw [h.st]⟩)

/-- A phase with a successor enters it on the first sample away from the level, that sample counted (R67). -/
theorem after_phase_moves {S : St} (hp : phaseOperands s.st = some (L, B)) (hS : phaseSuccessor s.st = some S)
    (hn : NoReset s (k + 1)) (hl : LineHolds s 0 k L) (hk : s.cnt.toNat + k ≤ B) (hend : (s.inputAt k).lineIn ≠ L) :
    After (k + 1) s (MovesTo S s) := by
  refine (after_phase_ends hp hn hl hk hend).imp fun t ⟨u, h, ht⟩ => ?_
  rw [ht, phaseEnd_of_successor hS]
  exact ⟨rfl, rfl, h.n, h.frame⟩

/-! ## The four phases -/

/-- Settles O28: ACK1 is the measurement of a low with bound 83, and its first count is 0. -/
theorem ack1Measures : Obligations.Ack1Measures := by
  refine ⟨fun start => decode_of_no_rst start .awaitAck1, fun _ => phaseTick_movesTo fun _ => rfl,
    fun s hst => ?outputs, fun s hst hc hn hl => ?timesOut, fun s hst hc hn hl => ?endsAtOnce⟩
  case outputs => exact ⟨by rw [busy_eq, hst]; rfl, by rw [State.lineOe, hst]⟩
  all_goals
    have hp : phaseOperands s.st = some (.low, 83) := by rw [hst]; rfl
    have hc0 : s.cnt.toNat = 0 := by rw [hc]; rfl
  case timesOut =>
    exact ⟨after_phase_count_eq hst (hst ▸ hp) (hn.mono (by omega)) (hl.mono (by omega)) (by omega) le_rfl,
      (after_phase_timesOut hp hn hl (by omega)).imp fun t ⟨hfail, _⟩ => hfail⟩
  case endsAtOnce =>
    have hnone : LineHolds s 0 0 .low := fun j hj => absurd hj j.not_lt_zero
    have hmoves := after_phase_moves hp (by rw [hst]; rfl) hn hnone (by omega) (Level.ne_low.2 (hl 0 (by omega)))
    exact hmoves.imp fun t ⟨hst', hc', _⟩ => ⟨hst', hc'⟩

/-- Settles O29: ACK2 is the measurement of a high with bound 87, and its first count is 1. -/
theorem ack2Measures : Obligations.Ack2Measures := by
  refine ⟨fun start => decode_of_no_rst start .awaitAck2, fun _ => phaseTick_movesTo fun _ => rfl,
    fun s hst hc hn hl => ?timesOut⟩
  have hp : phaseOperands s.st = some (.high, 87) := by rw [hst]; rfl
  have hc1 : s.cnt.toNat = 1 := by rw [hc]; rfl
  exact ⟨after_phase_count_eq hst (hst ▸ hp) (hn.mono (by omega)) (hl.mono (by omega)) (by omega) le_rfl,
    (after_phase_timesOut hp hn hl (by omega)).imp fun t ⟨hfail, _⟩ => hfail⟩

/-- Settles O30: BIT_LOW is the measurement of a low with bound 50, and sample 51 of its run decides how it ends. -/
theorem bitLowMeasures : Obligations.BitLowMeasures := by
  refine ⟨fun start => decode_of_no_rst start .bitLow, fun _ => phaseTick_movesTo fun _ => rfl,
    fun s hst hc hn hl => ?run⟩
  have hp : phaseOperands s.st = some (.low, 50) := by rw [hst]; rfl
  have hc1 : s.cnt.toNat = 1 := by rw [hc]; rfl
  refine ⟨after_phase_count_eq hst (hst ▸ hp) (hn.mono (by omega)) hl (by omega) le_rfl,
    fun hlow => ?low, fun hhigh => ?high⟩
  case low =>
    exact (after_phase_timesOut hp hn (hl.append hlow) (by omega)).imp fun t ⟨hfail, _⟩ => hfail
  case high =>
    have hmoves := after_phase_moves hp (by rw [hst]; rfl) hn hl (by omega) (Level.ne_low.2 (hhigh 0 (by omega)))
    exact hmoves.imp fun t ⟨hst', hc', _⟩ => ⟨hst', hc'⟩

/-- Settles O31: BIT_HIGH is the measurement of a high with bound 70, and sample 71 of its run decides between a timeout
and the placing of a 1. -/
theorem bitHighMeasuresAndPlaces : Obligations.BitHighMeasuresAndPlaces := by
  refine ⟨fun start => decode_of_no_rst start .bitHigh, fun _ => phaseTick_of_measure (fun _ => rfl) fun s => ?tick,
    fun s hst hc hn hl => ?run⟩
  case tick =>
    obtain ⟨hstore, hinputs, -⟩ := endBitHigh_frame s
    exact ⟨hstore, hinputs, bitPlaced_endBitHigh s⟩
  have hp : phaseOperands s.st = some (.high, 70) := by rw [hst]; rfl
  have hc1 : s.cnt.toNat = 1 := by rw [hc]; rfl
  refine ⟨after_phase_count_eq hst (hst ▸ hp) (hn.mono (by omega)) hl (by omega) le_rfl,
    fun hhigh => ?high, fun hlow => ?low⟩
  case high =>
    exact (after_phase_timesOut hp hn (hl.append hhigh) (by omega)).imp fun t ⟨hfail, _, hn', hframe⟩ =>
      ⟨hfail, hframe, hn'⟩
  case low =>
    have hends := after_phase_ends hp hn hl (by omega) (Level.ne_high.2 (hlow 0 (by omega)))
    refine hends.imp fun t ⟨u, h, ht⟩ hslot => ?_
    have hcnt : 40 < u.cnt.toNat := by rw [h.cnt]; omega
    rw [ht, hst, State.consumeInput_frame, phaseEnd, endBitHigh_streamBit u hslot]
    simp [h.n, hcnt]

/-- The rows of R66, R67 are those of the table of phases, each with a first count within the bound. -/
theorem phaseOperands_of_row :
    ∀ p ∈ [(St.awaitAck1, Level.low, 83, 0), (.awaitAck2, .high, 87, 1), (.bitLow, .low, 50, 1),
      (.bitHigh, .high, 70, 1)], phaseOperands p.1 = some (p.2.1, p.2.2.1) ∧ p.2.2.2 ≤ p.2.2.1 := by decide

/-- Settles O32: the rows are those of the table of phases, and in each the run within the bound ends the phase and the
longer one raises Timeout. -/
theorem phaseRunLengths : Obligations.PhaseRunLengths := by
  intro ⟨S, L, B, c⟩ hrow s hst hc
  dsimp only at hst hc ⊢
  obtain ⟨hS, hcB⟩ : phaseOperands S = some (L, B) ∧ c ≤ B := phaseOperands_of_row _ hrow
  have hp : phaseOperands s.st = some (L, B) := hst ▸ hS
  refine ⟨fun d hcd hdB hn hl hend => ⟨?counts, ?ends⟩, fun hn hl => ⟨fun k hk => ?stays, ?timesOut⟩⟩
  case counts => exact after_phase_count_eq hst hS (hn.mono (by omega)) hl (by omega) hdB
  case ends =>
    refine (after_phase_ends hp hn hl (by omega) hend).imp fun t ⟨u, h, ht⟩ => ?_
    rw [ht, ← hst, ← h.st]
    exact phaseEnd_leaves (h.st ▸ hp)
  case stays =>
    have hcounts := after_phase_counts hp (hn.mono hk.le) (hl.mono hk.le) (by omega)
    exact hcounts.imp fun t h => h.st.trans hst
  case timesOut =>
    rw [Nat.sub_add_comm hcB] at hn hl ⊢
    exact (after_phase_timesOut hp hn hl (by omega)).imp fun t ⟨hfail, hcnt, _⟩ => ⟨hfail, hcnt⟩

end Sys2Proof.Machine
end

section
/-! The bit classifier's threshold, the range of the counts it is given, and the ASSEMBLE tick (43_bit_assembler.md R74,
R77; O33, O34). -/

namespace Sys2Proof.Machine

variable {s : State} {r : Count}

theorem classify_eq_true_iff : classify r = true ↔ 40 < r.toNat := decide_eq_true_iff

theorem classify_eq_false_iff : classify r = false ↔ r.toNat ≤ 40 := decide_eq_false_iff_not.trans Nat.not_lt

/-- BIT_HIGH's row of the table of first and last counts: the range of the counts that are classified (R28, R71). -/
theorem RegisterBounds.bitHigh_cnt (h : RegisterBounds s) (hst : s.st = .bitHigh) :
    1 ≤ s.cnt.toNat ∧ s.cnt.toNat ≤ 70 := by
  obtain ⟨-, -, hcnt⟩ := registerBounds_iff.1 h
  rw [hst] at hcnt
  exact hcnt 70 rfl

/-- Settles O33: both sides of the threshold are read off the two equivalences, and the range off the register bounds. -/
theorem classifyAtTheThreshold : Obligations.ClassifyAtTheThreshold :=
  ⟨fun _ => classify_eq_true_iff, classify_eq_false_iff.2 (by decide), classify_eq_true_iff.2 (by decide),
    fun _ h hst => h.bitHigh_cnt hst⟩

/-- The operation ASSEMBLE writes `st` alone, whatever the state it runs in (R77). -/
theorem exec_assemble (start : Bool) (s : State) : exec (.assemble start) s = .next { s with st := .validating } := rfl

/-- Settles O34: ASSEMBLE is what ASSEMBLING selects without a reset, and every register but `st` is as before. -/
theorem assembleMovesOn : Obligations.AssembleMovesOn :=
  ⟨fun start => decode_of_no_rst start .assembling,
    fun start s => ⟨_, exec_assemble start s, rfl, rfl, rfl, rfl, sameStore_assemble s, rfl, rfl⟩⟩

end Sys2Proof.Machine
end

section
/-! The exact readings of a pair of stored bytes (44_checksum_validator.md R82, R83; O22), and the two ends of VALIDATE
(R79 to R81, R84; O35). -/

namespace Sys2Proof.Machine

/-! ## The rational readings -/

/-- Ten times the reading of an integral byte and a tenths byte is their tenths output, with no rounding (R24, R82). -/
theorem reading_mul_ten (a b : Byte) : (a.toNat + b.toNat / 10 : Rat) * 10 = (tenths a b).toNat := by
  rw [tenths_toNat]
  push_cast
  ring

theorem reading_nonneg (a b : Byte) : 0 ≤ (a.toNat + b.toNat / 10 : Rat) := by positivity

/-- The bound 2805 of the tenths, divided by ten. -/
theorem reading_le (a b : Byte) : (a.toNat + b.toNat / 10 : Rat) ≤ 2805 / 10 := by
  rw [le_div_iff₀ (by norm_num), reading_mul_ten]
  exact_mod_cast tenths_le a b

/-- Settles O22: humidity and temperature are the readings of the store's two pairs of bytes. -/
theorem readingsAreExactTenths : Obligations.ReadingsAreExactTenths := fun s =>
  ⟨rfl, reading_mul_ten s.storeHi s.storeHf, reading_nonneg s.storeHi s.storeHf, reading_le s.storeHi s.storeHf,
    rfl, reading_mul_ten s.storeTi s.storeTf, reading_nonneg s.storeTi s.storeTf, reading_le s.storeTi s.storeTf⟩

/-! ## The two ends of VALIDATE -/

variable {s : State}

/-- VALIDATE of a frame that passes the checksum test is the commit, whatever state it runs in (R80). -/
theorem exec_validate_of_matches (start : Bool) (hf : ChecksumMatches s.frame) :
    exec (.validate start) s = .next s.commit :=
  congrArg _ (if_pos ((frameSum_eq_iff s.frame).2 hf))

/-- VALIDATE of any other frame raises ChecksumMismatch (R81). -/
theorem exec_validate_of_mismatch (start : Bool) (hf : ¬ ChecksumMatches s.frame) :
    exec (.validate start) s = .next (s.raise .checksumMismatch) :=
  congrArg _ (if_neg (mt (frameSum_eq_iff s.frame).1 hf))

theorem status_code_commit (s : State) : s.commit.status.code = 2 := rfl

theorem status_code_raise_checksumMismatch (s : State) : (s.raise .checksumMismatch).status.code = 4 := rfl

/-- Settles O35: the checksum test decides between the commit and the failure entry, and both leave the frame, the
counters and the inputs alone. -/
theorem validateCommitsOrFails : Obligations.ValidateCommitsOrFails := by
  refine ⟨fun start => decode_of_no_rst start .validating, fun start s => ?_⟩
  by_cases hf : ChecksumMatches s.frame
  · exact ⟨s.commit, exec_validate_of_matches start hf,
      fun _ => ⟨s.commit_st, storeHolds_commit s, status_code_commit s⟩, absurd hf, rfl, rfl, rfl, rfl, rfl⟩
  · exact ⟨s.raise .checksumMismatch, exec_validate_of_mismatch start hf, fun h => absurd h hf,
      fun _ => ⟨s.raise_st _, sameStore_raise s _, status_code_raise_checksumMismatch s⟩, rfl, rfl, rfl, rfl, rfl⟩

end Sys2Proof.Machine
end

section
/-! The two failures: the one checksum byte that avoids a mismatch (O36; R87), what a step into a failure state is raised
by (O40; R85 to R89), and what a failure state goes on to (O41; R90, R91). -/

namespace Sys2Proof.Machine

variable {s t u : State}

/-! ## The checksum byte that passes -/

/-- The checksum test compares the last byte with the sum of the four before it, and no other byte equals that sum
(R79). -/
theorem checksumMatches_iff (b0 b1 b2 b3 b4 : Byte) :
    ChecksumMatches #v[b0, b1, b2, b3, b4] ↔ b4 = BitVec.ofNat 8 (b0.toNat + b1.toNat + b2.toNat + b3.toNat) :=
  (frameSum_eq_iff _).symm.trans eq_comm

/-- Settles O36: the byte is the sum of the four data bytes, and the checksum test decides how VALIDATE ends. -/
theorem oneChecksumBytePasses : Obligations.OneChecksumBytePasses := by
  intro b0 b1 b2 b3
  refine ⟨BitVec.ofNat 8 (b0.toNat + b1.toNat + b2.toNat + b3.toNat), fun b4 s start hs => ?_⟩
  have hiff := checksumMatches_iff b0 b1 b2 b3 b4
  rw [← hs] at hiff
  by_cases hf : ChecksumMatches s.frame
  · exact ⟨s.commit, exec_validate_of_matches start hf, iff_of_true rfl (hiff.1 hf),
      iff_of_false nofun (not_not_intro (hiff.1 hf))⟩
  · exact ⟨s.raise .checksumMismatch, exec_validate_of_mismatch start hf, iff_of_false nofun (mt hiff.2 hf),
      iff_of_true rfl (mt hiff.2 hf)⟩

/-! ## The entry into a failure state -/

/-- The failure states are waiting states (R44, R90). -/
theorem isWaiting_of_failure {S : St} (h : S = .failTimeout ∨ S = .failChecksum) : S.isWaiting = true := by
  obtain rfl | rfl := h
  all_goals rfl

/-- A tick that leads into a failure state from another state is the timeout of a phase or the mismatch of VALIDATING:
of the other effects, those that change `st` lead to a busy state, to IDLE or to DONE. -/
theorem TickEffect.enters_failure (hu : TickEffect s u) (hfail : u.st = .failTimeout ∨ u.st = .failChecksum)
    (hne : s.st ≠ u.st) : (s.inputAt 0).rst = false ∧
      ((u = s.raise .timeout ∧ ∃ L B, phaseOperands s.st = some (L, B) ∧ s.lineIn = L ∧ s.cnt.toNat = B) ∨
       (u = s.raise .checksumMismatch ∧ s.st = .validating ∧ ¬ ChecksumMatches s.frame)) := by
  have hbusy : ¬ u.st.isBusy = true := by simp [isBusy_of_isWaiting (isWaiting_of_failure hfail)]
  cases hu with
  | phaseTimesOut hr hp hl hc => exact ⟨hr, .inl ⟨rfl, _, _, hp, hl, hc⟩⟩
  | mismatch hr hst hf => exact ⟨hr, .inr ⟨rfl, hst, hf⟩⟩
  | wait | windowCounts | phaseCounts => exact absurd rfl hne
  | start | assemble => exact absurd rfl hbusy
  | windowEnds _ hw => exact absurd (isBusy_of_window hw).2 hbusy
  | phaseEnds _ _ hS => exact absurd (isBusy_of_phaseSuccessor hS) hbusy
  | bitHighEnds => exact absurd (endBitHigh_isBusy s) hbusy
  | reset | commit | recover => simp at hfail

/-- Settles O40: only the two failures lead into a failure state, and raising one writes `st` alone. -/
theorem failureEntryIsPrecise : Obligations.FailureEntryIsPrecise := by
  intro s t h hfail hne
  obtain ⟨u, hu, rfl⟩ := tickEffect_of_step h
  obtain ⟨hr, ⟨rfl, L, B, hp, hl, hc⟩ | ⟨rfl, hst, hf⟩⟩ := hu.enters_failure hfail hne
  · have hrow := phaseOperands_eq_some.1 hp
    refine ⟨hr, rfl, rfl, rfl, fun _ => ⟨rfl, L, B, ?_, hl, hc⟩, nofun⟩
    simpa [bAckLow, bAckHigh, bBitLow, bBitHigh] using hrow
  · exact ⟨hr, rfl, rfl, rfl, nofun, fun _ => ⟨rfl, hst, hf⟩⟩

/-! ## After a failure -/

/-- Settles O41: a failure state is a waiting state, whose tick is RESET, START or WAIT by its `rst` and `start`. -/
theorem nothingRunsAfterAFailure : Obligations.NothingRunsAfterAFailure := by
  intro s t hfail h
  have hw := isWaiting_of_failure hfail
  refine ⟨fun hr => ?reset, fun hr hstart => ?start, fun hr hstart => ?wait⟩
  case reset =>
    cases (step_reset hr).symm.trans h
    exact registersReset_consumeInput.2 (registersReset_resetRegisters s)
  case start =>
    cases (step_start ⟨hw, hr, hstart⟩).symm.trans h
    exact readBegun_consumeInput.2 (readBegun_beginRead s)
  case wait =>
    cases (step_wait hr hstart hw).symm.trans h
    exact sameRegisters_refl s

end Sys2Proof.Machine
end

section
/-! How runs of ticks split, what they keep, and two consequences of single ticks: RESET held for any number of ticks (O11;
R99), and a START on the first tick of a terminal state (O18; R103). -/

namespace Sys2Proof.Machine

variable {s t u : State} {a b k : Nat} {P Q : State → Prop}

/-! ## Runs of ticks -/

theorem runTicks_add (h : runTicks a s = .next t) (b : Nat) : runTicks (a + b) s = runTicks b t := by
  induction a generalizing s with
  | zero => cases h; rw [Nat.zero_add]
  | succ a ih =>
    obtain ⟨u, hstep, hrun⟩ := runTicks_succ_eq_next.1 h
    rw [Nat.add_right_comm, runTicks_succ hstep, ih hrun]

theorem after_add (h : runTicks a s = .next t) : After (a + b) s P ↔ After b t P := by
  rw [After, After, runTicks_add h]

/-- No run stops, since no step does (R47, R85). -/
theorem runTicks_answers (k : Nat) (s : State) : ∃ t, runTicks k s = .next t := by
  induction k generalizing s with
  | zero => exact ⟨s, rfl⟩
  | succ k ih =>
    obtain ⟨u, hstep⟩ := step_answers s
    rw [runTicks_succ hstep]
    exact ih u

/-- What every step keeps, every run keeps. -/
theorem kept_of_runTicks (hkept : ∀ s t, P s → step s = .next t → P t) (hs : P s) (h : runTicks k s = .next t) :
    P t := by
  induction k generalizing s with
  | zero => cases h; exact hs
  | succ k ih =>
    obtain ⟨u, hstep, hrun⟩ := runTicks_succ_eq_next.1 h
    exact ih (hkept s u hs hstep) hrun

/-! ## The caller's inputs -/

/-- Settles O11: whatever state the ticks before have led to, the last of them is RESET. -/
theorem resetTakesTheResetValues : Obligations.ResetTakesTheResetValues := by
  refine ⟨fun _ _ s => ⟨s.resetRegisters, rfl, registersReset_resetRegisters s, rfl, rfl⟩,
    fun s k hrst m hm1 hmk => ?held⟩
  obtain ⟨j, rfl⟩ := Nat.exists_eq_add_of_le' hm1
  obtain ⟨u, hrun⟩ := runTicks_answers j s
  have hr : (u.inputAt 0).rst = true := by rw [inputAt_of_runTicks hrun]; exact hrst j (by omega)
  have hreset : RegistersReset u.resetRegisters.consumeInput :=
    registersReset_consumeInput.2 (registersReset_resetRegisters u)
  exact (after_add hrun).2 ((after_succ (step_reset hr)).2 (after_zero ⟨hreset, rfl, rfl, rfl, rfl, rfl⟩))

/-- Settles O18: the second tick is taken in the waiting state, with `start` sampled and no reset. -/
theorem startHeldBeginsTheNextRead : Obligations.StartHeldBeginsTheNextRead := by
  intro s t _ hstep hw hn hstart
  have hb : ReadBegins t := ⟨hw, hn.of_step hstep 0 (by omega), by rw [inputAt_of_step hstep]; exact hstart⟩
  exact (after_succ hstep).2 (startBeginsARead.2.1 t hb)

end Sys2Proof.Machine
end

section
/-! A read followed tick by tick from its START: the ticks of the start request (O26; R111), and the state at the release of
the line. -/

namespace Sys2Proof.Machine

variable {s t u : State} {a k : Nat} {P : State → Prop}

/-! ## The start request -/

theorem after_start (hb : ReadBegins s) : After (k + 1) s P ↔ After k s.beginRead.consumeInput P :=
  after_succ (step_start hb)

theorem reqLow_after_start (hb : ReadBegins s) (hn : NoReset s 20001) :
    (∀ k < 20000, After (k + 1) s fun t => t.st = .reqLow) ∧ After 20001 s fun t => t.st = .reqHigh ∧ t.cnt = 0 := by
  obtain ⟨hstays, hends⟩ := after_window (s := s.beginRead.consumeInput) (T := 20000) (S := .reqHigh) rfl rfl
    (hn.of_step (step_start hb))
  exact ⟨fun k hk => (after_start hb).2 ((hstays k hk).imp fun t h => h.1), (after_start hb).2 hends⟩

theorem reqHigh_after_start (hb : ReadBegins s) (hn : NoReset s 20031) :
    (∀ k < 30, After (20001 + k) s fun t => t.st = .reqHigh) ∧
      After (20001 + 30) s fun t => t.st = .awaitAck1 ∧ t.cnt = 0 := by
  obtain ⟨u, hrun, hst, hc⟩ := (reqLow_after_start hb (hn.mono (by omega))).2
  obtain ⟨hstays, hends⟩ := after_window (s := u) (T := 30) (S := .awaitAck1) (by rw [hst]; rfl) hc
    (hn.of_runTicks (a := 20001) hrun)
  exact ⟨fun k hk => (after_add hrun).2 ((hstays k hk).imp fun t h => h.1.trans hst), (after_add hrun).2 hends⟩

/-- Settles O26: the two windows one after the other, and the outputs of their states. -/
theorem startRequestTiming : Obligations.StartRequestTiming := by
  intro s hb hn
  obtain ⟨hlow, -⟩ := reqLow_after_start hb (hn.mono (by omega))
  obtain ⟨hhigh, hrelease⟩ := reqHigh_after_start hb hn
  refine ⟨fun k hk1 hk => ?low, fun k hk1 hk => ?high, hrelease.imp fun t ⟨hst, hc⟩ => ⟨hst, hc, ?released⟩⟩
  case low =>
    obtain ⟨j, rfl⟩ := Nat.exists_eq_add_of_le' hk1
    exact (hlow j (by omega)).imp fun t hst => ⟨hst, (lineOutputs t).1 hst⟩
  case high =>
    obtain ⟨j, rfl⟩ := Nat.exists_eq_add_of_le hk1
    exact (hhigh j (by omega)).imp fun t hst => ⟨hst, (lineOutputs t).2.1 hst⟩
  case released => rw [State.lineOe, hst]

/-! ## A read on its way -/

/-- A read is being received: it has not ended, and its frame is not yet being validated. -/
def Receiving (S : St) : Prop := S.isBusy = true ∧ S ≠ .validating

/-- `t` is the state `k` ticks after `s`, and from tick 1 until then the read has been received. -/
structure ReadReaches (s : State) (k : Nat) (t : State) : Prop where
  run : runTicks k s = .next t
  receiving : ∀ j, 1 ≤ j → j < k → After j s fun u => Receiving u.st

theorem readReaches_refl (s : State) : ReadReaches s 0 s := ⟨rfl, fun j _ hj => absurd hj j.not_lt_zero⟩

/-- A read followed through `k` more ticks, at each of which it is being received. -/
theorem ReadReaches.extend (h : ReadReaches s a t) (hk : ∀ j < k, After j t fun u => Receiving u.st)
    (hP : After k t P) : ∃ u, ReadReaches s (a + k) u ∧ P u := by
  obtain ⟨u, hrun, hu⟩ := hP
  refine ⟨u, ⟨by rw [runTicks_add h.run, hrun], fun j hj1 hj => ?_⟩, hu⟩
  by_cases hja : j < a
  · exact h.receiving j hj1 hja
  · obtain ⟨i, rfl⟩ := Nat.exists_eq_add_of_le (Nat.not_lt.1 hja)
    exact (after_add h.run).2 (hk i (by omega))

theorem ReadReaches.step (h : ReadReaches s a t) (ht : Receiving t.st) (hstep : step t = .next u) :
    ReadReaches s (a + 1) u := by
  have hone : ∀ j < 1, After j t fun v => Receiving v.st := fun j hj => by
    obtain rfl : j = 0 := by omega
    exact after_zero ht
  obtain ⟨v, hv, rfl⟩ := h.extend hone ((after_succ hstep).2 (after_zero (P := (· = u)) rfl))
  exact hv

/-- A read on its way has left the store alone: no tick of it was a reset or a VALIDATE (R34, R38). -/
theorem ReadReaches.sameStore (h : ReadReaches s k t) (hb : ReadBegins s) (hn : NoReset s k) : SameStore s t := by
  refine lastReadingStands k s t h.run hn fun j hj u hu hst => ?_
  by_cases hj0 : j = 0
  · subst hj0
    cases hu
    simp [ReadBegins, hst, St.isWaiting] at hb
  · obtain ⟨v, hv, -, hne⟩ := h.receiving j (by omega) hj
    cases hu.symm.trans hv
    exact hne hst

/-- At the release of the line nothing has been read (R36, R111). -/
theorem readReaches_release (hb : ReadBegins s) (hn : NoReset s 20031) :
    ∃ t, ReadReaches s 20031 t ∧ t.st = .awaitAck1 ∧ t.cnt = 0 ∧ t.n = 0 ∧ t.frame = zeroFrame := by
  obtain ⟨hlow, hhigh, t, hrun, hst, hc, -⟩ := startRequestTiming s hb hn
  have hprogress : ReadProgress t := by
    obtain ⟨u, hstep, hrest⟩ := runTicks_succ_eq_next.1 hrun
    cases (step_start hb).symm.trans hstep
    refine kept_of_runTicks readProgressKept ?_ hrest
    exact readProgress_consumeInput.2 (readProgress_of_nothingRead (.inr (.inl rfl)) rfl rfl)
  obtain ⟨-, -, hnothing, -, -⟩ := hprogress
  refine ⟨t, ⟨hrun, fun j hj1 hj => ?_⟩, hst, hc, hnothing (by simp [hst])⟩
  by_cases hj2 : j ≤ 20000
  · exact (hlow j hj1 hj2).imp fun u ⟨hu, _⟩ => by rw [hu]; exact ⟨rfl, nofun⟩
  · exact (hhigh j (by omega) (by omega)).imp fun u ⟨hu, _⟩ => by rw [hu]; exact ⟨rfl, nofun⟩

end Sys2Proof.Machine
end

section
/-! The phases of a read by the lengths of the line's pulses, at ticks counted from the state the read is followed from:
a pulse is counted, ends its phase or times it out. With it the reads that time out (O49, O50; R106, R113). -/

namespace Sys2Proof.Machine

variable {s t u : State} {S S' : St} {L : Level} {B a c d i k : Nat} {bits : Nat → Bool}

theorem LineHolds.of_runTicks (hl : LineHolds s (a + c) k L) (h : runTicks a s = .next t) : LineHolds t c k L := by
  intro j hj
  rw [inputAt_of_runTicks h, ← Nat.add_assoc]
  exact hl j hj

/-- The last `k` samples of `c + k` at one level. -/
theorem LineHolds.drop (hl : LineHolds s a (c + k) L) : LineHolds s (a + c) k L := by
  intro j hj
  rw [Nat.add_assoc]
  exact hl (c + j) (by omega)

theorem LineHolds.last (hl : LineHolds s a (k + 1) L) : (s.inputAt (a + k)).lineIn = L := hl k (by omega)

theorem receiving_of_phase (hp : phaseOperands S = some (L, B)) : Receiving S :=
  ⟨isBusy_of_phase hp, fun h => by simp [h, phaseOperands] at hp⟩

/-- `k` ticks after `s` the read has come to the state `S` with `cnt = c`, in slot `i`, with the received bits `bits`. -/
def ReadIn (s : State) (k : Nat) (S : St) (c i : Nat) (bits : Nat → Bool) : Prop :=
  ∃ t, ReadReaches s k t ∧ t.st = S ∧ t.cnt.toNat = c ∧ t.n.toNat = i ∧ ∀ j < 40, streamBit t.frame j = bits j

theorem ReadIn.after (h : ReadIn s k S c i bits) :
    After k s fun t => t.st = S ∧ t.cnt.toNat = c ∧ t.n.toNat = i := by
  obtain ⟨t, hrun, hst, hc, hi, -⟩ := h
  exact ⟨t, hrun.run, hst, hc, hi⟩

theorem ReadIn.after_st (h : ReadIn s k S c i bits) : After k s fun t => t.st = S := h.after.imp fun _ ht => ht.1

/-! ## A pulse -/

/-- A phase that has counted the first `c` samples of a pulse goes on to count `d` of them, if its bound allows. -/
theorem ReadIn.counts (h : ReadIn s (a + c) S c i bits) (hp : phaseOperands S = some (L, B)) (hn : NoReset s (a + d))
    (hl : LineHolds s a d L) (hcd : c ≤ d) (hd : d ≤ B) : ReadIn s (a + d) S d i bits := by
  obtain ⟨t, hrun, hst, hc, hi, hbits⟩ := h
  obtain ⟨k, rfl⟩ := Nat.exists_eq_add_of_le hcd
  rw [← Nat.add_assoc] at hn
  have hcounts : ∀ j ≤ k, After j t (CountedOn t j) := fun j hj =>
    after_phase_counts (hst ▸ hp) ((hn.of_runTicks hrun.run).mono hj)
      ((hl.drop.of_runTicks (c := 0) hrun.run).mono hj) (by omega)
  have hreceiving : ∀ j < k, After j t fun u => Receiving u.st := fun j hj =>
    (hcounts j hj.le).imp fun u hu => by rw [hu.st, hst]; exact receiving_of_phase hp
  obtain ⟨u, hu, hcount⟩ := hrun.extend hreceiving (hcounts k le_rfl)
  exact ⟨u, Nat.add_assoc a c k ▸ hu, hcount.st.trans hst, by rw [hcount.cnt, hc], by rw [hcount.n, hi],
    by rwa [hcount.frame]⟩

/-- A sample away from the level ends the phase; it is the first sample of the next phase (R65, R67). -/
theorem ReadIn.moves (h : ReadIn s k S c i bits) (hp : phaseOperands S = some (L, B)) (hS : phaseSuccessor S = some S')
    (hn : NoReset s (k + 1)) (hl : (s.inputAt k).lineIn ≠ L) : ReadIn s (k + 1) S' 1 i bits := by
  obtain ⟨t, hrun, rfl, hc, hi, hbits⟩ := h
  have hr : (t.inputAt 0).rst = false := hn.of_runTicks hrun.run 0 (by omega)
  have hlast : (t.inputAt 0).lineIn ≠ L := by rwa [inputAt_of_runTicks hrun.run]
  have hstep := step_phase_end hr hp hlast
  rw [phaseEnd_of_successor hS] at hstep
  exact ⟨_, hrun.step (receiving_of_phase hp) hstep, rfl, rfl, hi, hbits⟩

/-- A pulse longer than the bound times the phase out on sample `B + 1` (R65, R66). -/
theorem ReadIn.timesOut (h : ReadIn s (a + c) S c i bits) (hp : phaseOperands S = some (L, B))
    (hn : NoReset s (a + B + 1)) (hl : LineHolds s a (B + 1) L) (hc : c ≤ B) :
    ReadIn s (a + B) S B i bits ∧ After (a + B + 1) s fun t => t.st = .failTimeout := by
  have hfull := h.counts hp (hn.mono (by omega)) (hl.mono (by omega)) hc le_rfl
  have ⟨t, hrun, hst, hcnt, _⟩ := hfull
  have hr : (t.inputAt 0).rst = false := hn.of_runTicks hrun.run 0 (by omega)
  have hlast : (t.inputAt 0).lineIn = L := by rw [inputAt_of_runTicks hrun.run]; exact hl.last
  exact ⟨hfull, (after_add hrun.run).2 ((after_succ (step_phase_raise hr (hst ▸ hp) hlast hcnt)).2 (after_zero rfl))⟩

/-! ## Reads that time out -/

theorem readIn_release (hb : ReadBegins s) (hn : NoReset s 20031) :
    ReadIn s 20031 .awaitAck1 0 0 fun _ => false := by
  obtain ⟨t, hrun, hst, hc, hi, hframe⟩ := readReaches_release hb hn
  exact ⟨t, hrun, hst, by rw [hc]; rfl, by rw [hi]; rfl, fun j hj => by rw [hframe, streamBit_zeroFrame j hj]⟩

/-- Settles O49: a high ends ACK1 at once and runs past ACK2's bound of 87; a low runs past ACK1's bound of 83. -/
theorem silentLineTimesOut : Obligations.SilentLineTimesOut := by
  intro s hb
  refine ⟨fun hn hhigh => ?high, fun hn hlow => ?low⟩
  case high =>
    have hack1 := readIn_release hb (hn.mono (by omega))
    have hack2 := hack1.moves rfl rfl (hn.mono (by omega)) (Level.ne_low.2 (hhigh 0 (by omega)))
    obtain ⟨hlast, hfail⟩ := hack2.timesOut (B := 87) rfl hn hhigh (by omega)
    exact ⟨hlast.after_st, hfail⟩
  case low =>
    have hack1 := readIn_release hb (hn.mono (by omega))
    obtain ⟨hlast, hfail⟩ := hack1.timesOut (a := 20031) (c := 0) (B := 83) rfl hn hlow (by omega)
    exact ⟨hlast.after_st, hfail⟩

/-- A high of `g` samples before the response takes the place of the acknowledgement high (R106). -/
theorem ReadIn.lateResponse {g : Nat} (h : ReadIn s 0 .awaitAck1 0 i bits) (hg1 : 1 ≤ g) (hg : g ≤ 87)
    (hn : NoReset s (g + 1)) (hhigh : LineHolds s 0 g .high) (hlow : (s.inputAt g).lineIn = .low) :
    ReadIn s (g + 1) .bitLow 1 i bits := by
  have hack2 : ReadIn s (0 + 1) .awaitAck2 1 i bits :=
    h.moves rfl rfl (hn.mono (by omega)) (Level.ne_low.2 (hhigh 0 (by omega)))
  have hlast := hack2.counts rfl ((Nat.zero_add g).symm ▸ hn.mono (by omega)) hhigh hg1 hg
  rw [Nat.zero_add] at hlast
  exact hlast.moves rfl rfl hn (Level.ne_high.2 hlow)

/-- Settles O50: after the high that ended as ACK2's pulse, the acknowledgement is read as slot 0, whose bounds of 50 and
70 it passes; a high of more than 87 does not get through ACK2. -/
theorem lateResponseTimesOut : Obligations.LateResponseTimesOut := by
  intro s g hst hc hi hg1
  have hack1 : ReadIn s 0 .awaitAck1 0 0 (streamBit s.frame) :=
    ⟨s, readReaches_refl s, hst, by rw [hc]; rfl, by rw [hi]; rfl, fun _ _ => rfl⟩
  refine ⟨fun hg hn hhigh hlow hpulse => ?bitHigh, fun hg hn hhigh hlow => ?bitLow, fun hg hn hhigh => ?ack2⟩
  case bitHigh =>
    have hbit := hack1.lateResponse hg1 hg (hn.mono (by omega)) hhigh (hlow 0 (by omega))
    have hslot := hbit.counts rfl (hn.mono (by omega)) hlow (by omega) le_rfl
    have hdata := hslot.moves rfl rfl (hn.mono (by omega)) (Level.ne_low.2 (hpulse 0 (by omega)))
    obtain ⟨hlast, hfail⟩ := hdata.timesOut (B := 70) rfl hn hpulse (by omega)
    exact ⟨hlast.after.imp fun t ⟨hst', _, hi'⟩ => ⟨hst', BitVec.eq_of_toNat_eq hi'⟩, hfail⟩
  case bitLow =>
    have hbit := hack1.lateResponse hg1 hg (hn.mono (by omega)) hhigh (hlow 0 (by omega))
    obtain ⟨hlast, hfail⟩ := hbit.timesOut (B := 50) rfl hn hlow (by omega)
    exact ⟨hlast.after.imp fun t ⟨hst', _, hi'⟩ => ⟨hst', BitVec.eq_of_toNat_eq hi'⟩, hfail⟩
  case ack2 =>
    have hack2 := hack1.moves rfl rfl (hn.mono (by omega)) (Level.ne_low.2 (hhigh 0 (by omega)))
    exact (hack2.timesOut (a := 0) (B := 87) rfl hn (hhigh.mono hg) (by omega)).2

end Sys2Proof.Machine
end

section
/-! A well-formed response from its handshake to its verdict (O47; R112): every phase ends with its pulse's length as its
count, by induction on the slots, and every pulse longer than 40 leaves a 1 (R74 to R76). -/

namespace Sys2Proof.Machine

variable {s t : State} {S : St} {a0 a1 c i k : Nat} {l h : Nat → Nat} {bits : Nat → Bool}

/-! ## The end of a slot and of the payload -/

/-- The received bits with slot `i`'s pulse of `c` samples placed (R75). -/
def placeBit (bits : Nat → Bool) (i c j : Nat) : Bool := bits j || (decide (j = i) && decide (40 < c))

/-- The bits received once the first `i` slots have ended, where slot `j` holds a pulse of `h j` samples (R76). -/
def receivedBits (h : Nat → Nat) (i j : Nat) : Bool := decide (j < i) && decide (40 < h j)

theorem receivedBits_zero : receivedBits h 0 = fun _ => false := by
  funext j
  simp [receivedBits]

theorem placeBit_receivedBits : placeBit (receivedBits h i) i (h i) = receivedBits h (i + 1) := by
  funext j
  by_cases hj : j = i
  · simp [placeBit, receivedBits, hj]
  · have hlt : j < i + 1 ↔ j < i := by omega
    simp [placeBit, receivedBits, hj, hlt]

theorem receivedBits_of_lt (hi : i < k) : receivedBits h k i = decide (40 < h i) := by simp [receivedBits, hi]

/-- A low sample ends the pulse of slot `i`, which is placed; the next slot follows, or ASSEMBLING after the last (R75). -/
theorem ReadIn.pulseEnds (hs : ReadIn s k .bitHigh c i bits) (hn : NoReset s (k + 1))
    (hl : (s.inputAt k).lineIn = .low) :
    (i < 39 → ReadIn s (k + 1) .bitLow 1 (i + 1) (placeBit bits i c)) ∧
    (i = 39 → ReadIn s (k + 1) .assembling 0 39 (placeBit bits i c)) := by
  obtain ⟨t, hrun, hst, rfl, rfl, hbits⟩ := hs
  have hr : (t.inputAt 0).rst = false := hn.of_runTicks hrun.run 0 (by omega)
  have hlast : (t.inputAt 0).lineIn = .low := by rwa [inputAt_of_runTicks hrun.run]
  have hreach := hrun.step (hst ▸ receiving_of_phase rfl) (step_bitHigh_low hr hst hlast)
  obtain ⟨hplaced, hend, hnext⟩ := bitPlaced_endBitHigh t
  have hbits' : ∀ j < 40, streamBit (endBitHigh t.cnt t).frame j = placeBit bits t.n.toNat t.cnt.toNat j :=
    fun j hj => by rw [hplaced j hj, hbits j hj, placeBit]
  refine ⟨fun hi => ?next, fun hi => ?last⟩
  case next =>
    obtain ⟨hst', hc', hi'⟩ := hnext hi.ne
    exact ⟨_, hreach, hst', congrArg BitVec.toNat hc', (congrArg BitVec.toNat hi').trans (bitIndex_succ_toNat hi),
      hbits'⟩
  case last =>
    obtain ⟨hst', hc', hi'⟩ := hend hi
    exact ⟨_, hreach, hst', congrArg BitVec.toNat hc', (congrArg BitVec.toNat hi').trans hi, hbits'⟩

theorem ReadIn.assembles (hs : ReadIn s k .assembling c i bits) (hn : NoReset s (k + 1)) :
    ReadIn s (k + 1) .validating c i bits := by
  obtain ⟨t, hrun, hst, hc, hi, hbits⟩ := hs
  have hr : (t.inputAt 0).rst = false := hn.of_runTicks hrun.run 0 (by omega)
  exact ⟨_, hrun.step (hst ▸ ⟨rfl, nofun⟩) (step_assemble hr hst), rfl, hc, hi, hbits⟩

theorem step_mismatch (hr : (s.inputAt 0).rst = false) (hst : s.st = .validating) (hf : ¬ ChecksumMatches s.frame) :
    step s = .next (s.raise .checksumMismatch).consumeInput := by
  rw [step_validate hr hst, if_neg (mt (frameSum_eq_iff _).1 hf)]

/-- The tick of VALIDATING keeps the frame and decides the read by its checksum (R79 to R81). -/
theorem after_verdict (hr : (s.inputAt 0).rst = false) (hst : s.st = .validating) :
    After 1 s fun t => t.frame = s.frame ∧ (ChecksumMatches t.frame → t.st = .done ∧ StoreHolds t t.frame) ∧
      (¬ ChecksumMatches t.frame → t.st = .failChecksum ∧ SameStore s t) := by
  by_cases hf : ChecksumMatches s.frame
  · exact (after_succ (step_commit hr hst hf)).2
      (after_zero ⟨rfl, fun _ => ⟨rfl, storeHolds_consumeInput.2 (storeHolds_commit s)⟩, absurd hf⟩)
  · exact (after_succ (step_mismatch hr hst hf)).2
      (after_zero ⟨rfl, fun h => absurd h hf, fun _ => ⟨rfl, sameStore_consumeInput.2 (sameStore_raise s _)⟩⟩)

theorem ReadIn.after_sameStore (hs : ReadIn s k S c i bits) (hb : ReadBegins s) (hn : NoReset s k) :
    After k s fun t => t.st = S ∧ SameStore s t ∧ ∀ j < 40, streamBit t.frame j = bits j := by
  obtain ⟨t, hrun, hst, -, -, hbits⟩ := hs
  exact ⟨t, hrun.run, hst, hrun.sameStore hb hn, hbits⟩

/-! ## The response -/

/-- A read without a reset on which the line answers as R112 says. -/
structure WellFormedRead (s : State) (a0 a1 : Nat) (l h : Nat → Nat) : Prop where
  begins : ReadBegins s
  lengths : AcceptedLengths a0 a1 l h
  answers : LineAnswers s 20031 a0 a1 l h
  noReset : NoReset s (20034 + slotStart a0 a1 l h 40)

theorem slotStart_mono : Monotone (slotStart a0 a1 l h) :=
  monotone_nat_of_le_succ fun i => by simp only [slotStart]; omega

namespace WellFormedRead

variable (hw : WellFormedRead s a0 a1 l h)
include hw

theorem noReset_slot (hi : i ≤ 40) : NoReset s (20034 + slotStart a0 a1 l h i) :=
  hw.noReset.mono (Nat.add_le_add_left (slotStart_mono hi) 20034)

theorem noReset_handshake : NoReset s (20034 + a0 + a1) :=
  Nat.add_assoc 20034 a0 a1 ▸ hw.noReset_slot (Nat.zero_le 40)

/-- The line is low at the start of every slot, and after the last one. -/
theorem low_at_slotStart (hi : i ≤ 40) : (s.inputAt (20031 + slotStart a0 a1 l h i)).lineIn = .low := by
  obtain ⟨-, -, -, -, hslots⟩ := hw.lengths
  obtain ⟨-, -, hslot, hafter⟩ := hw.answers
  obtain hi | rfl := hi.lt_or_eq
  · exact (hslot i hi).1 0 (hslots i hi).1
  · exact hafter 0 (by omega)

theorem ack1_counted : ReadIn s (20031 + a0) .awaitAck1 a0 0 (receivedBits h 0) := by
  obtain ⟨-, ha0, -⟩ := hw.lengths
  have hrelease := readIn_release hw.begins (hw.noReset.mono (by omega))
  rw [receivedBits_zero]
  exact hrelease.counts (c := 0) rfl (hw.noReset_handshake.mono (by omega)) hw.answers.1 (Nat.zero_le a0) ha0

theorem ack2_begins : ReadIn s (20031 + a0 + 1) .awaitAck2 1 0 (receivedBits h 0) := by
  obtain ⟨-, -, ha1, -⟩ := hw.lengths
  obtain ⟨-, hhigh, -⟩ := hw.answers
  exact hw.ack1_counted.moves rfl rfl (hw.noReset_handshake.mono (by omega)) (Level.ne_low.2 (hhigh 0 ha1))

theorem ack2_counted : ReadIn s (20031 + a0 + a1) .awaitAck2 a1 0 (receivedBits h 0) := by
  obtain ⟨-, -, ha1, ha1', -⟩ := hw.lengths
  obtain ⟨-, hhigh, -⟩ := hw.answers
  exact hw.ack2_begins.counts rfl (hw.noReset_handshake.mono (by omega)) hhigh ha1 ha1'

theorem payload_begins : ReadIn s (20031 + a0 + a1 + 1) .bitLow 1 0 (receivedBits h 0) := by
  have hlow := hw.low_at_slotStart (Nat.zero_le 40)
  rw [slotStart, ← Nat.add_assoc] at hlow
  exact hw.ack2_counted.moves rfl rfl (hw.noReset_handshake.mono (by omega)) (Level.ne_high.2 hlow)

/-- One slot, from its first low sample counted to its pulse counted. -/
theorem slot (hi : i < 40) (hs : ReadIn s (20031 + slotStart a0 a1 l h i + 1) .bitLow 1 i bits) :
    ReadIn s (20031 + slotStart a0 a1 l h i + l i) .bitLow (l i) i bits ∧
    ReadIn s (20031 + slotStart a0 a1 l h i + l i + 1) .bitHigh 1 i bits ∧
    ReadIn s (20031 + slotStart a0 a1 l h i + l i + h i) .bitHigh (h i) i bits := by
  obtain ⟨-, -, -, -, hslots⟩ := hw.lengths
  obtain ⟨hl1, hl, hh1, hh⟩ := hslots i hi
  obtain ⟨-, -, hslot, -⟩ := hw.answers
  obtain ⟨hlow, hhigh⟩ := hslot i hi
  have hn : NoReset s (20034 + (slotStart a0 a1 l h i + l i + h i)) := hw.noReset_slot (i := i + 1) hi
  have hsep := hs.counts rfl (hn.mono (by omega)) hlow hl1 hl
  have hpulse := hsep.moves rfl rfl (hn.mono (by omega)) (Level.ne_low.2 (hhigh 0 hh1))
  exact ⟨hsep, hpulse, hpulse.counts rfl (hn.mono (by omega)) hhigh hh1 hh⟩

/-- The end of slot `i`, with its bit received. -/
theorem slot_ends (hi : i < 40) (hs : ReadIn s (20031 + slotStart a0 a1 l h i + 1) .bitLow 1 i (receivedBits h i)) :
    (i < 39 → ReadIn s (20031 + slotStart a0 a1 l h (i + 1) + 1) .bitLow 1 (i + 1) (receivedBits h (i + 1))) ∧
    (i = 39 → ReadIn s (20031 + slotStart a0 a1 l h (i + 1) + 1) .assembling 0 39 (receivedBits h (i + 1))) := by
  obtain ⟨-, -, hpulse⟩ := hw.slot hi hs
  rw [Nat.add_assoc, Nat.add_assoc, ← Nat.add_assoc (slotStart a0 a1 l h i)] at hpulse
  rw [← placeBit_receivedBits]
  exact hpulse.pulseEnds ((hw.noReset_slot (i := i + 1) hi).mono (by simp only [slotStart]; omega))
    (hw.low_at_slotStart (i := i + 1) hi)

theorem slot_begins (hi : i < 40) :
    ReadIn s (20031 + slotStart a0 a1 l h i + 1) .bitLow 1 i (receivedBits h i) := by
  induction i with
  | zero => rw [slotStart, ← Nat.add_assoc]; exact hw.payload_begins
  | succ i ih => exact (hw.slot_ends (by omega) (ih (by omega))).1 (by omega)

theorem assembling : ReadIn s (20032 + slotStart a0 a1 l h 40) .assembling 0 39 (receivedBits h 40) := by
  rw [← Nat.add_right_comm 20031 _ 1]
  exact (hw.slot_ends (i := 39) (by omega) (hw.slot_begins (by omega))).2 rfl

theorem validating : ReadIn s (20033 + slotStart a0 a1 l h 40) .validating 0 39 (receivedBits h 40) := by
  rw [← Nat.add_right_comm 20032 _ 1]
  exact hw.assembling.assembles (hw.noReset.mono (by omega))

theorem verdict : After (20034 + slotStart a0 a1 l h 40) s fun t =>
    (∀ i < 40, streamBit t.frame i = decide (40 < h i)) ∧
    (ChecksumMatches t.frame → t.st = .done ∧ StoreHolds t t.frame) ∧
    (¬ ChecksumMatches t.frame → t.st = .failChecksum ∧ SameStore s t) := by
  obtain ⟨t, hrun, hst, hstore, hbits⟩ := hw.validating.after_sameStore hw.begins (hw.noReset.mono (by omega))
  have hn : NoReset s (20033 + slotStart a0 a1 l h 40 + 1) := hw.noReset.mono (by omega)
  rw [← Nat.add_right_comm 20033 _ 1]
  refine (after_add hrun).2 ((after_verdict (hn.of_runTicks hrun 0 (by omega)) hst).imp
    fun u ⟨hframe, hdone, hfail⟩ => ⟨fun i hi => ?_, hdone, fun hf => ?_⟩)
  · rw [hframe, hbits i hi, receivedBits_of_lt hi]
  · obtain ⟨hst', hstore'⟩ := hfail hf
    exact ⟨hst', hstore.trans hstore'⟩

end WellFormedRead

/-- Settles O47: each part of the response is the read's own phase with its pulse counted, then the verdict. -/
theorem wellFormedResponseIsDecoded : Obligations.WellFormedResponseIsDecoded := by
  intro s a0 a1 l h hb hlen hans hn
  have hw : WellFormedRead s a0 a1 l h := ⟨hb, hlen, hans, hn⟩
  refine ⟨hw.ack1_counted.after.imp fun t ⟨hst, hc, _⟩ => ⟨hst, hc⟩, hw.ack2_begins.after_st,
    hw.ack2_counted.after.imp fun t ⟨hst, hc, _⟩ => ⟨hst, hc⟩,
    hw.payload_begins.after.imp fun t ⟨hst, _, hi⟩ => ⟨hst, BitVec.eq_of_toNat_eq hi⟩,
    fun i hi => ?slot, ?assembling, ?validating, hw.verdict⟩
  case slot =>
    obtain ⟨hsep, hbegins, hpulse⟩ := hw.slot hi (hw.slot_begins hi)
    exact ⟨hsep.after.imp fun t ⟨hst, hc, hi⟩ => ⟨hst, hi, hc⟩, hbegins.after.imp fun t ⟨hst, _, hi⟩ => ⟨hst, hi⟩,
      hpulse.after.imp fun t ⟨hst, hc, hi⟩ => ⟨hst, hi, hc⟩⟩
  case assembling =>
    exact (hw.assembling.after_sameStore hb (hn.mono (by omega))).imp fun t ⟨hst, hstore, hbits⟩ =>
      ⟨hst, hstore, fun i hi => (hbits i hi).trans (receivedBits_of_lt hi)⟩
  case validating =>
    exact (hw.validating.after_sameStore hb (hn.mono (by omega))).imp fun t ⟨hst, hstore, _⟩ => ⟨hst, hstore⟩

end Sys2Proof.Machine
end

section
/-! Every read ends (O48; R59, R114): a bound on the ticks a read has left, which every tick of the read lowers, and the
longest read, which uses all of them. -/

namespace Sys2Proof.Machine

variable {s t u : State} {S S' : St} {L : Level} {B T b k : Nat}

/-! ## The ticks a read has left -/

/-- The most ticks a read can take from the end of a window or phase on, in slot `i` (R114): the windows and phases that
follow at their bounds, 120 ticks for each slot, and the two ticks of ASSEMBLING and VALIDATING. -/
def ticksAfter : St → Nat → Nat
  | .reqLow, _     => 5003
  | .reqHigh, _    => 4973
  | .awaitAck1, _  => 4889
  | .awaitAck2, _  => 4802
  | .bitLow, i     => 72 + (39 - i) * 120
  | .bitHigh, i    => 2 + (39 - i) * 120
  | .assembling, _ => 1
  | _, _           => 0

/-- The most ticks a read can still take, this one included. -/
def ticksLeft (s : State) : Nat :=
  ((lastCount s.st).getD 0 - s.cnt.toNat) + 1 + ticksAfter s.st s.n.toNat

theorem ticksLeft_of_lastCount (hB : lastCount s.st = some B) :
    ticksLeft s = B - s.cnt.toNat + 1 + ticksAfter s.st s.n.toNat := by
  rw [ticksLeft, hB, Option.getD_some]

theorem ticksLeft_of_no_count (h : lastCount s.st = none) : ticksLeft s = 1 + ticksAfter s.st s.n.toNat := by
  rw [ticksLeft, h, Option.getD_none, Nat.zero_sub, Nat.zero_add]

theorem ticksAfter_lt_ticksLeft (s : State) : ticksAfter s.st s.n.toNat < ticksLeft s := by
  rw [ticksLeft]
  omega

/-- The end of a window leaves the whole of the next part and what comes after that. -/
theorem ticksLeft_enter_of_window (hw : window s.st = some (T, S)) :
    ticksLeft (s.enter S 0) = ticksAfter s.st s.n.toNat := by
  obtain ⟨hst, -, rfl⟩ | ⟨hst, -, rfl⟩ := window_eq_some.1 hw
  all_goals rw [hst]; rfl

/-- The end of a phase leaves at most that; entering the payload past slot 0 would leave less. -/
theorem ticksLeft_enter_of_phase (hS : phaseSuccessor s.st = some S) :
    ticksLeft (s.enter S 1) ≤ ticksAfter s.st s.n.toNat := by
  obtain ⟨hst, rfl⟩ | ⟨hst, rfl⟩ | ⟨hst, rfl⟩ := phaseSuccessor_eq_some.1 hS
  · rw [hst]; exact le_rfl
  · have hleft : ticksLeft (s.enter .bitLow 1) = 50 + (72 + (39 - s.n.toNat) * 120) := rfl
    rw [hst, hleft, ticksAfter]
    omega
  · have hleft : ticksLeft (s.enter .bitHigh 1) = 70 + (2 + (39 - s.n.toNat) * 120) := rfl
    rw [hst, hleft, ticksAfter]
    omega

/-- A pulse's end leaves the slots after this one, or ASSEMBLING and VALIDATING after the last. -/
theorem ticksLeft_endBitHigh (hn : s.n.toNat ≤ 39) :
    ticksLeft (endBitHigh s.cnt s) = ticksAfter .bitHigh s.n.toNat := by
  obtain ⟨-, -, hlast, hnext⟩ := endBitHigh_frame s
  by_cases e : s.n.toNat = 39
  · obtain ⟨hst, -, -⟩ := hlast e
    rw [ticksLeft_of_no_count (by rw [hst]; rfl), hst, e]
    rfl
  · obtain ⟨hst, hc, hi⟩ := hnext e
    have hc1 : (endBitHigh s.cnt s).cnt.toNat = 1 := by rw [hc]; rfl
    rw [ticksLeft_of_lastCount (B := 50) (by rw [hst]; rfl), hst, hi, hc1, bitIndex_succ_toNat (by omega)]
    simp only [ticksAfter]
    omega

theorem ticksLeft_assemble (hst : s.st = .assembling) :
    ticksLeft { s with st := .validating } = ticksAfter s.st s.n.toNat := by
  rw [ticksLeft_of_no_count rfl, hst]
  rfl

theorem ticksLeft_countUp (hB : lastCount s.st = some B) (hc : s.cnt.toNat < B) :
    ticksLeft s.countUp + 1 = ticksLeft s := by
  have hlimit : B < 32767 := (lastCount_range hB).2
  have hcnt : s.countUp.cnt.toNat = s.cnt.toNat + 1 := count_succ_toNat (by omega)
  rw [ticksLeft_of_lastCount (s := s.countUp) hB, ticksLeft_of_lastCount hB, hcnt, State.countUp_st, State.countUp_n]
  omega

/-- Every phase has at least the two ticks of ASSEMBLING and VALIDATING after it. -/
theorem two_le_ticksAfter_of_phase (hp : phaseOperands S = some (L, B)) (i : Nat) : 2 ≤ ticksAfter S i := by
  obtain ⟨rfl, -⟩ | ⟨rfl, -⟩ | ⟨rfl, -⟩ | ⟨rfl, -⟩ := phaseOperands_eq_some.1 hp
  all_goals
    simp only [ticksAfter]
    omega

/-! ## One tick of a read -/

/-- The terminal states, with the ticks `b` that a read may have left when a tick of it leads there: a timeout leaves
those of ASSEMBLING and VALIDATING unused. -/
def EndsWithin (b : Nat) (S : St) : Prop := S = .done ∨ (S = .failTimeout ∧ 3 ≤ b) ∨ S = .failChecksum

/-- A tick of a read that is not reset ends it, or leaves it busy with at least one tick less to go. -/
theorem TickEffect.busy_or_ends (hu : TickEffect s u) (hr : (s.inputAt 0).rst = false) (hbusy : s.st.isBusy = true)
    (hbounds : RegisterBounds s) :
    (u.st.isBusy = true ∧ ticksLeft u + 1 ≤ ticksLeft s) ∨ EndsWithin (ticksLeft s) u.st := by
  obtain ⟨hres, hn, hcount⟩ := registerBounds_iff.1 hbounds
  have hafter := ticksAfter_lt_ticksLeft s
  cases hu with
  | reset hr' => simp [hr] at hr'
  | wait _ _ hw => simp [isBusy_of_isWaiting hw] at hbusy
  | start hb => simp [isBusy_of_isWaiting hb.1] at hbusy
  | recover _ hst => simp [hres] at hst
  | windowCounts _ hw hc =>
    have hB := lastCount_of_window hw
    exact .inl ⟨hbusy, (ticksLeft_countUp hB (lt_of_le_of_ne (hcount _ hB).2 hc)).le⟩
  | phaseCounts _ hp _ hc =>
    have hB := lastCount_of_phase hp
    exact .inl ⟨hbusy, (ticksLeft_countUp hB (lt_of_le_of_ne (hcount _ hB).2 hc)).le⟩
  | windowEnds _ hw =>
    have hleft := ticksLeft_enter_of_window hw
    exact .inl ⟨(isBusy_of_window hw).2, by omega⟩
  | phaseEnds _ _ hS =>
    have hleft := ticksLeft_enter_of_phase hS
    exact .inl ⟨isBusy_of_phaseSuccessor hS, by omega⟩
  | bitHighEnds _ hst =>
    have hleft := ticksLeft_endBitHigh hn
    rw [← hst] at hleft
    exact .inl ⟨endBitHigh_isBusy s, by omega⟩
  | assemble _ hst =>
    have hleft := ticksLeft_assemble hst
    exact .inl ⟨rfl, by omega⟩
  | phaseTimesOut _ hp =>
    have htwo := two_le_ticksAfter_of_phase hp s.n.toNat
    exact .inr (.inr (.inl ⟨rfl, by omega⟩))
  | commit => exact .inr (.inl rfl)
  | mismatch => exact .inr (.inr (.inr rfl))

theorem ticksLeft_consumeInput (u : State) : ticksLeft u.consumeInput = ticksLeft u := rfl

theorem busy_or_ends_of_step (h : step s = .next t) (hr : (s.inputAt 0).rst = false) (hbusy : s.st.isBusy = true)
    (hbounds : RegisterBounds s) :
    (t.st.isBusy = true ∧ ticksLeft t + 1 ≤ ticksLeft s) ∨ EndsWithin (ticksLeft s) t.st := by
  obtain ⟨u, hu, rfl⟩ := tickEffect_of_step h
  rw [ticksLeft_consumeInput]
  exact hu.busy_or_ends hr hbusy hbounds

/-! ## The whole read -/

/-- A busy block that is not reset comes to a terminal state within the ticks it has left, by induction on them. -/
theorem busy_until_end (hbusy : s.st.isBusy = true) (hbounds : RegisterBounds s) (hn : NoReset s b)
    (hb : ticksLeft s ≤ b) : ∃ k < b, (∀ j ≤ k, After j s fun t => t.st.isBusy = true) ∧
      After (k + 1) s fun t => EndsWithin (b - k) t.st := by
  induction b generalizing s with
  | zero => exact absurd (ticksAfter_lt_ticksLeft s) (by omega)
  | succ b ih =>
    obtain ⟨t, hstep⟩ := step_answers s
    obtain ⟨hbusy', hleft⟩ | hend := busy_or_ends_of_step hstep (hn 0 (by omega)) hbusy hbounds
    · obtain ⟨k, hk, hbefore, hend⟩ :=
        ih hbusy' (registerBoundsKept s t hbounds hstep) (hn.of_step hstep) (by omega)
      refine ⟨k + 1, by omega, fun j hj => ?_, (after_succ hstep).2 (by rwa [Nat.add_sub_add_right])⟩
      cases j with
      | zero => exact after_zero hbusy
      | succ j => exact (after_succ hstep).2 (hbefore j (by omega))
    · have hend' : EndsWithin (b + 1) t.st := hend.imp_right (.imp_left fun ⟨hst, h3⟩ => ⟨hst, h3.trans hb⟩)
      refine ⟨0, by omega, fun j hj => ?_, (after_succ hstep).2 (after_zero hend')⟩
      obtain rfl : j = 0 := by omega
      exact after_zero hbusy

theorem registerBounds_beginRead (s : State) : RegisterBounds s.beginRead :=
  registerBounds_iff.2 ⟨rfl, by simp, by simp [firstCount]⟩

/-- A read begun has 25003 ticks left (R114). -/
theorem ticksLeft_beginRead (s : State) : ticksLeft s.beginRead = 25003 := by
  rw [ticksLeft_of_lastCount (B := 19999) rfl]
  rfl

theorem outputs_of_endsWithin (h : EndsWithin b t.st) : t.busy = false ∧
    ((t.st = .done ∧ t.status.code = 2) ∨ (t.st = .failTimeout ∧ t.status.code = 3 ∧ 3 ≤ b) ∨
      (t.st = .failChecksum ∧ t.status.code = 4)) := by
  obtain ⟨-, -, -, hdone, htimeout, hchecksum, -⟩ := busyAndStatus t
  rw [busy_eq]
  obtain hst | ⟨hst, h3⟩ | hst := h
  · exact ⟨by rw [hst]; rfl, .inl ⟨hst, hdone hst⟩⟩
  · exact ⟨by rw [hst]; rfl, .inr (.inl ⟨hst, htimeout hst, h3⟩)⟩
  · exact ⟨by rw [hst]; rfl, .inr (.inr ⟨hst, hchecksum hst⟩)⟩

/-- The longest response: every pulse at its bound (R114). -/
theorem WellFormedRead.longest (hb : ReadBegins s) (hn : NoReset s 25004)
    (hans : LineAnswers s 20031 83 87 (fun _ => 50) fun _ => 70) :
    WellFormedRead s 83 87 (fun _ => 50) fun _ => 70 :=
  ⟨hb, by simp [AcceptedLengths], hans, hn⟩

/-- Settles O48: the ticks a read has left bound it, and the longest response is still received at tick 25002. -/
theorem everyReadEnds : Obligations.EveryReadEnds := by
  refine ⟨fun s hb hn => ?ends, fun s hb hn hans => ?longest⟩
  case ends =>
    obtain ⟨k, hk, hbusy, hend⟩ := busy_until_end (s := s.beginRead.consumeInput) rfl (registerBounds_beginRead s)
      ((hn.mono (by omega)).of_step (step_start hb)) (ticksLeft_beginRead s).le
    refine ⟨k + 2, by omega, by omega, fun j hj1 hj => ?_, (after_start hb).2 (hend.imp fun t ht => ?_)⟩
    · obtain ⟨i, rfl⟩ := Nat.exists_eq_add_of_le' hj1
      exact (after_start hb).2 ((hbusy i (by omega)).imp fun t ht => ⟨by rw [busy_eq, ht], status_code_of_busy ht⟩)
    · obtain ⟨hidle, hdone | ⟨hst, hstatus, h3⟩ | hchecksum⟩ := outputs_of_endsWithin ht
      · exact ⟨hidle, .inl hdone⟩
      · exact ⟨hidle, .inr (.inl ⟨hst, hstatus, by omega⟩)⟩
      · exact ⟨hidle, .inr (.inr hchecksum)⟩
  case longest =>
    have hw := WellFormedRead.longest hb hn hans
    have hD : slotStart 83 87 (fun _ => 50) (fun _ => 70) 40 = 4970 := by decide
    have hvalidating := hw.validating
    have hverdict := hw.verdict
    rw [hD] at hvalidating hverdict
    obtain ⟨t, hreach, hst, -⟩ := hvalidating
    refine ⟨fun j hj1 hj => ?_, hverdict.imp fun u ⟨_, hdone, hfail⟩ => ?_⟩
    · obtain hj | rfl := Nat.lt_or_eq_of_le hj
      · exact (hreach.receiving j hj1 hj).imp fun u hu => by rw [busy_eq, hu.1]
      · exact ⟨t, hreach.run, (busy_eq t).trans (by rw [hst]; rfl)⟩
    · rw [busy_eq]
      by_cases hf : ChecksumMatches u.frame
      · rw [(hdone hf).1]; rfl
      · rw [(hfail hf).1]; rfl

end Sys2Proof.Machine
end
